-- ==== Sys2Proof/Word.lean ====
section
/-! DEFINITION. The widths of 00_scope.md R14: a byte, a 16-bit value, a 7-bit bus address. All quantities are
unsigned (R14); the block has no signed value anywhere. -/

namespace Sys2Proof

/-- A byte is 8 bits, an unsigned integer 0 to 255 (R14). -/
abbrev Byte := BitVec 8

/-- A 16-bit value: the CRC register (R21), `param2` (R140), a request's `len` (R81). -/
abbrev Half := BitVec 16

/-- A "seven-bit device address" (R31, ADDR_WIDTH of R11). -/
abbrev BusAddr := BitVec 7

end Sys2Proof
end

