-- ==== Sys2Proof/Config.lean ====
section
/-! DEFINITION. The literals the spec fixes (00_scope.md R11), the parameters it leaves open (R12) and the model's free
values. Everything `opaque` here has no body: no proof can see what it is. -/

namespace Sys2Proof

/-! ### Constants the source fixes (R11) -/

/-- POLY, the value XORed into the CRC register (R11). -/
abbrev Config.poly : Half := 0x8005#16
/-- CRC_SEED, the CRC register at the start of every computation (R11). -/
abbrev Config.crcSeed : Half := 0x0000#16
/-- RXBUF_CAP, the capacity of the reassembly buffer in bytes (R11). -/
abbrev Config.rxbufCap : Nat := 128
/-- The capacity of `txbuf`: one prefix byte and at most 255 further bytes (R32). -/
abbrev Config.txbufCap : Nat := 256
/-- SENTINEL, the fill byte of the reassembly buffer (R11). -/
abbrev Config.sentinel : Byte := 0xFF#8
/-- CHUNK_MAX, the most bytes asked of one transport read (R11). -/
abbrev Config.chunkMax : Nat := 32
/-- ATTEMPT_MAX, the bound of the retry counter (R11). -/
abbrev Config.attemptMax : Nat := 20
/-- The value at which `rx_total` saturates (R24). -/
abbrev Config.rxTotalMax : Nat := 255
/-- WAKE_SIGNAL, the successful-wakeup signal byte (R11). -/
abbrev Config.wakeSignal : Byte := 0x11#8
/-- WAKE_RESP_LEN, the length of the wake response frame (R11). -/
abbrev Config.wakeRespLen : Byte := 4#8
/-- T_WHI_US, the wait after the wake pulse in microseconds: exactly the bound (R11, R121). -/
abbrev Config.tWhiUs : Nat := 1500
/-- T_WLO_US, the least time in microseconds the line is low for a wake: the transport's duty (R11, R260). -/
abbrev Config.tWloUs : Nat := 60
/-- STATUS_OK, the success status byte of a one-byte payload (R11, R78). -/
abbrev Config.statusOk : Byte := 0x00#8
/-- OVERHEAD: count, opcode, param1, param2 (2) and CRC (2), in bytes (R11, R71). -/
abbrev Config.overhead : Nat := 7

/-- The third payload byte that means success of `getInfo` (R78, R181). -/
abbrev Config.infoOk : Byte := 0x50#8
/-- The lock-status pattern of an unlocked zone (R44, R78). -/
abbrev Config.unlocked : Byte := 0x55#8
/-- The lock-status byte of a locked zone (R44, R78). -/
abbrev Config.locked : Byte := 0x00#8

/-! ### Parameters the source leaves open (R12) -/

/-- The open parameters the block itself uses. `MAX_TRANSFER` is a byte because `count` is one byte (R12). `DEV_ADDR`
is not here: construction loads it into the register `dev_addr` (R31). -/
structure Params where
  /-- PFX_COMMAND, "enter command mode" (R74). -/
  pfxCommand : Byte
  /-- PFX_IDLE, "enter idle" (R74). -/
  pfxIdle : Byte
  /-- PFX_SLEEP, "enter sleep" (R74). -/
  pfxSleep : Byte
  /-- MAX_TRANSFER, 7 to 255 (R12). -/
  maxTransfer : Byte
  /-- WAKE_ADDR, the address of the zero-byte wake transmission (R121). -/
  wakeAddr : BusAddr
  deriving DecidableEq, Repr

/-- All that R12 lets a model assume of the open parameters: the prefixes are pairwise distinct and
7 ≤ MAX_TRANSFER. -/
abbrev Params.Legal (p : Params) : Prop :=
  p.pfxCommand ≠ p.pfxIdle ∧ p.pfxCommand ≠ p.pfxSleep ∧ p.pfxIdle ≠ p.pfxSleep ∧ Config.overhead ≤ p.maxTransfer.toNat

/-- Free: the command prefix. -/
opaque Config.rawCommand : Byte
/-- Free: which of the 255 other bytes the idle prefix is. -/
opaque Config.rawIdle : Nat
/-- Free: which of the 254 remaining bytes the sleep prefix is. -/
opaque Config.rawSleep : Nat
/-- Free: which of the 249 values 7 to 255 MAX_TRANSFER is. -/
opaque Config.rawMaxTransfer : Nat
/-- Free: WAKE_ADDR (R12). -/
opaque Config.wakeAddr : BusAddr
/-- Free: DEV_ADDR (R12, R31). -/
opaque Config.devAddr : BusAddr

/-- The idle prefix's distance from the command prefix, 1 to 255. -/
def Config.idleOffset : Nat := Config.rawIdle % 255 + 1

/-- The sleep prefix's distance from the command prefix, 1 to 255 and not `idleOffset`. -/
def Config.sleepOffset : Nat :=
  if Config.rawSleep % 254 + 1 < Config.idleOffset then Config.rawSleep % 254 + 1 else Config.rawSleep % 254 + 2

/-- The parameters the block is constructed with (R250): every legal choice is one value of the free constants above,
and no illegal choice is. -/
def Config.params : Params where
  pfxCommand := Config.rawCommand
  pfxIdle := Config.rawCommand + BitVec.ofNat 8 Config.idleOffset
  pfxSleep := Config.rawCommand + BitVec.ofNat 8 Config.sleepOffset
  maxTransfer := BitVec.ofNat 8 (7 + Config.rawMaxTransfer % 249)
  wakeAddr := Config.wakeAddr

/-! ### Free values -/

/-- U8, R61: the answer of the `n`-th transport write that the environment's script does not settle; true is `ok`. -/
opaque Config.freeAck : Nat → Bool
/-- U8, R62: the answer of the `n`-th transport read that the script does not settle; none is `err`. -/
opaque Config.freeRead : Nat → Option (List Byte)
/-- U1, R37: the two bytes of `last_crc` after reset, low byte first. -/
opaque Config.unwrittenCrc : Byte × Byte
/-- U1, R37: what a byte of `rxbuf` that nothing has written since reset holds. -/
opaque Config.unwrittenRx : Nat → Byte
/-- U1, R37: what a byte of `txbuf` that nothing has written since reset holds. -/
opaque Config.unwrittenTx : Nat → Byte

end Sys2Proof
end

