-- ==== Sys2Proof/Syntax.lean ====
section
/-! DEFINITION. The instruction set: the eleven operations of 30_encoding.md R80 and the six wire formats of R70, R72,
R74, R75 (one constructor per row of spec/opcode_table.json), and what stands at the block's two interfaces before
decoding: a request of the host port (R81), the content of a bus write, the bytes of a bus read. -/

namespace Sys2Proof

/-- One constructor per row of spec/opcode_table.json. -/
inductive Instr where
  /-- CRC_CLR (R100). -/
  | crcClr
  /-- CRC_SHIFT d (R101). -/
  | crcShift (d : Bool)
  /-- CRC_BYTE b (R102). -/
  | crcByte (b : Byte)
  /-- CRC16 data (R103). -/
  | crc16 (data : List Byte)
  /-- WAKE (R120). -/
  | wake
  /-- IDLE (R123). -/
  | idle
  /-- SLEEP (R124). -/
  | sleep
  /-- ENCODE opcode, param1, param2, data (R140). -/
  | encode (opcode param1 : Byte) (param2 : Half) (data : List Byte)
  /-- DECODE (R144). -/
  | decode
  /-- TRANSMIT (R160). -/
  | transmit
  /-- RECEIVE expected_len (R162). -/
  | receive (expectedLen : Byte)
  /-- OUT_FRAME: a bus write of a command frame to `dev_addr` (R70). -/
  | outFrame (opcode param1 : Byte) (param2 : Half) (data : List Byte)
  /-- IN_FRAME: a response frame that a bus read from `dev_addr` brings (R72). -/
  | inFrame (payload : List Byte)
  /-- CTRL_IDLE: the bus write of the one byte PFX_IDLE (R74). -/
  | ctrlIdle
  /-- CTRL_SLEEP: the bus write of the one byte PFX_SLEEP (R74). -/
  | ctrlSleep
  /-- WAKE_PULSE: the bus write of no bytes to WAKE_ADDR (R75). -/
  | wakePulse
  /-- WAKE_RESPONSE: the four bytes 04 11 33 43 that a bus read from `dev_addr` brings (R75). -/
  | wakeResponse
  deriving DecidableEq, Repr

/-- The eleven operations, the rows of the table of R80. -/
inductive Operation where
  | crcClr | crcShift | crcByte | crc16 | wake | idle | sleep | encode | decode | transmit | receive
  deriving DecidableEq, Repr

/-- The fields after `op[7:0]` in the five request formats of R81: single fields, with no byte order. -/
inductive RequestFields where
  | f0
  | f1 (d : Bool)
  | f2 (b : Byte)
  | f3 (len : Half) (data : List Byte)
  | f4 (opcode param1 : Byte) (param2 len : Half) (data : List Byte)
  deriving DecidableEq, Repr

/-- "A request is a record of fields, not a byte stream" (R81): the operation number and the fields of its format. -/
structure Request where
  op : Byte
  fields : RequestFields
  deriving DecidableEq, Repr

/-- What happens next at one of the block's interfaces. -/
inductive Input where
  /-- HOST issues a request on the host port (R81). -/
  | request (r : Request)
  /-- A bus write of the content `s` to address `a` takes place (R74). -/
  | busWrite (a : BusAddr) (s : List Byte)
  /-- DEVICE's response bytes `s` come to stand on the bus, for the following bus reads (R51, R72). -/
  | busRead (s : List Byte)
  deriving DecidableEq, Repr

/-- Why an input stands for no instruction. Every reason is safe: the model stops and claims nothing. -/
inductive DecodeError where
  /-- The operation number is none of the eleven of R80 (R82, U2). -/
  | unassignedOperation (op : Byte)
  /-- The record's fields are not those of the operation's format (R81). -/
  | wrongFormat (op : Byte)
  /-- The byte sequence has not `len` bytes (R81). -/
  | wrongLength (op : Byte)
  /-- A bus write to neither `dev_addr` nor, with no bytes, WAKE_ADDR (R51). -/
  | unknownBusAddress (a : BusAddr)
  /-- A bus write whose first byte is none of the three prefixes (R83 a), or that has no byte at all. -/
  | unknownPrefix
  /-- A bus write or read too short or too long to be a frame (R70, R73). -/
  | noFrameLength
  /-- The count byte is not the frame's length (R71, R72). -/
  | wrongCount
  /-- The two CRC bytes are not those of the frame (R70, R72). -/
  | wrongCrc
  deriving DecidableEq, Repr

end Sys2Proof
end

