-- ==== Sys2Proof/Machine/Crc.lean ====
section
/-! DEFINITION. The CRC-16 unit as functions on its register (40_crc16.md): one shift step, a byte, a byte sequence, and
the most-significant-bit-first generator that R109 compares it with. -/

namespace Sys2Proof.Machine

/-- Two CRC bytes in the order they are sent: low byte first (R53, R103). -/
structure CrcPair where
  lo : Byte
  hi : Byte
  deriving DecidableEq, Repr

/-- The unit's outputs `crc_lo` = `crc_reg[7:0]` and `crc_hi` = `crc_reg[15:8]` (R110). -/
def crcPair (r : Half) : CrcPair := { lo := r.extractLsb' 0 8, hi := r.extractLsb' 8 8 }

/-- The pair as it stands on the wire: low byte, then high byte (R53). -/
def CrcPair.bytes (c : CrcPair) : List Byte := [c.lo, c.hi]

/-- R101: the top bit before the shift, the shift left by one, and the XOR "if the two bits differ". -/
def crcShiftStep (r : Half) (d : Bool) : Half :=
  if d ≠ r.getLsbD 15 then (r <<< 1) ^^^ Config.poly else r <<< 1

/-- R102: the eight bits of `b`, bit 0 first. It continues from whatever the register holds. -/
def crcByteStep (r : Half) (b : Byte) : Half :=
  crcShiftStep (crcShiftStep (crcShiftStep (crcShiftStep (crcShiftStep (crcShiftStep (crcShiftStep (crcShiftStep r
    (b.getLsbD 0)) (b.getLsbD 1)) (b.getLsbD 2)) (b.getLsbD 3)) (b.getLsbD 4)) (b.getLsbD 5)) (b.getLsbD 6)) (b.getLsbD 7)

/-- The bytes of a sequence in index order (R103, the loop). -/
def crcBytesStep (r : Half) : List Byte → Half
  | [] => r
  | b :: bs => crcBytesStep (crcByteStep r b) bs

/-- The final register of `crc16(s)`: CRC_CLR and then every byte (R103). -/
def crcRegOf (s : List Byte) : Half := crcBytesStep Config.crcSeed s

/-- `crc16(s)`, the pair `(lo, hi)` (R103). -/
def crc16Of (s : List Byte) : CrcPair := crcPair (crcRegOf s)

/-- One step of the textbook generator R109 speaks of, on the register alone. -/
def msbFirstBit (r : Half) (d : Bool) : Half :=
  let shifted := r <<< 1
  if Bool.xor d r.msb then shifted ^^^ Config.poly else shifted

/-- The textbook generator's byte: the most significant bit enters first (R109). -/
def msbFirstByte (r : Half) (b : Byte) : Half :=
  [7, 6, 5, 4, 3, 2, 1, 0].foldl (fun q i => msbFirstBit q (b.getLsbD i)) r

/-- The textbook most-significant-bit-first CRC: polynomial 0x8005, initial value 0, no final XOR, no reflection of the
output (R109). -/
def msbFirstCrc (s : List Byte) : Half := s.foldl msbFirstByte 0#16

/-- A byte with its bits in the opposite order (R109). -/
def reverseBits (b : Byte) : Byte := b.reverse

end Sys2Proof.Machine
end

