-- ==== Sys2Proof/Machine/Operands.lean ====
section
/-! DEFINITION. Field assembly (30_encoding.md R70 to R76): how the operands of an operation become the bytes of a frame,
and the bytes of the control writes. -/

namespace Sys2Proof.Machine

/-- `param2[7:0]`, sent first (R53, R76). -/
def param2Low (v : Half) : Byte := v.extractLsb' 0 8

/-- `param2[15:8]`, sent second (R53, R76). -/
def param2High (v : Half) : Byte := v.extractLsb' 8 8

/-- `param2` from its two bytes, the low one first (R53). -/
def param2Of (low high : Byte) : Half := high ++ low

/-- `count` of an outbound frame: OVERHEAD + len(data) = 7 + n (R71). -/
def outCount (data : List Byte) : Byte := BitVec.ofNat 8 (Config.overhead + data.length)

/-- The bytes the CRC of an outbound frame covers: `count` through the end of `data` (R76, R141). -/
def outBody (opcode param1 : Byte) (param2 : Half) (data : List Byte) : List Byte :=
  outCount data :: opcode :: param1 :: param2Low param2 :: param2High param2 :: data

/-- The outbound command frame of R70 behind the first byte `pfx`. -/
def outFrameBytes (pfx opcode param1 : Byte) (param2 : Half) (data : List Byte) : List Byte :=
  pfx :: (outBody opcode param1 param2 data ++ (crc16Of (outBody opcode param1 param2 data)).bytes)

/-- The bytes the CRC of an inbound frame covers: `count` = L through the end of the payload (R72, R76). -/
def inBody (payload : List Byte) : List Byte := BitVec.ofNat 8 (payload.length + 3) :: payload

/-- The inbound response frame of R72. -/
def inFrameBytes (payload : List Byte) : List Byte := inBody payload ++ (crc16Of (inBody payload)).bytes

/-- The wake response as R75 lists it. -/
def wakeResponseBytes : List Byte := [0x04#8, 0x11#8, 0x33#8, 0x43#8]

end Sys2Proof.Machine
end

