-- ==== Sys2Proof/WellFormed.lean ====
section
/-! DEFINITION. Which instructions have an encoding: the limits that R70 to R73 and R81 put on the lengths of their byte
sequences. -/

namespace Sys2Proof

/-- Each check is a limit of the encoding. `len` is 16 bits (R81); an outbound frame's count is at most MAX_TRANSFER
(R71); an inbound frame has at most 128 bytes (R73), and the one with the payload 11 is the row WAKE_RESPONSE. -/
def Instr.wf (p : Params) : Instr → Bool
  | .crcClr => true
  | .crcShift _ => true
  | .crcByte _ => true
  | .crc16 data => decide (data.length < 65536)
  | .wake => true
  | .idle => true
  | .sleep => true
  | .encode _ _ _ data => decide (data.length < 65536)
  | .decode => true
  | .transmit => true
  | .receive _ => true
  | .outFrame _ _ _ data => decide (Config.overhead + data.length ≤ p.maxTransfer.toNat)
  | .inFrame payload => decide (payload.length + 3 ≤ Config.rxbufCap) && decide (payload ≠ [Config.wakeSignal])
  | .ctrlIdle => true
  | .ctrlSleep => true
  | .wakePulse => true
  | .wakeResponse => true

end Sys2Proof
end

