-- ==== Sys2Proof/Decode.lean ====
section
/-! DEFINITION. The decoder, total on every request and on any bytes of the bus, and the encoder, both written from the
tables of 30_encoding.md (R80, R81; R70, R72, R74, R75). -/

namespace Sys2Proof

open Sys2Proof.Machine

/-- The column `op` of R80. -/
def Operation.number : Operation → Byte
  | .crcClr => 0x10#8
  | .crcShift => 0x11#8
  | .crcByte => 0x12#8
  | .crc16 => 0x13#8
  | .wake => 0x20#8
  | .idle => 0x21#8
  | .sleep => 0x22#8
  | .encode => 0x30#8
  | .decode => 0x31#8
  | .transmit => 0x40#8
  | .receive => 0x41#8

/-- The operation with a number, if R80 has one; "all eight bits are significant". -/
def operationOf (op : Byte) : Option Operation :=
  [.crcClr, .crcShift, .crcByte, .crc16, .wake, .idle, .sleep, .encode, .decode, .transmit, .receive].find?
    fun o => o.number = op

/-- R81: the record's fields must be those of the operation's format, and a byte sequence has `len` bytes. -/
def decodeFields (o : Operation) (f : RequestFields) : Except DecodeError Instr :=
  match o, f with
  | .crcClr, .f0 => .ok .crcClr
  | .crcShift, .f1 d => .ok (.crcShift d)
  | .crcByte, .f2 b => .ok (.crcByte b)
  | .crc16, .f3 len data => if data.length = len.toNat then .ok (.crc16 data) else .error (.wrongLength o.number)
  | .wake, .f0 => .ok .wake
  | .idle, .f0 => .ok .idle
  | .sleep, .f0 => .ok .sleep
  | .encode, .f4 opcode param1 param2 len data =>
    if data.length = len.toNat then .ok (.encode opcode param1 param2 data) else .error (.wrongLength o.number)
  | .decode, .f0 => .ok .decode
  | .transmit, .f0 => .ok .transmit
  | .receive, .f2 b => .ok (.receive b)
  | _, _ => .error (.wrongFormat o.number)

/-- A request: the operation number selects the operation (R80); any other number is unassigned (R82). -/
def decodeRequest (r : Request) : Except DecodeError Instr :=
  match operationOf r.op with
  | some o => decodeFields o r.fields
  | none => .error (.unassignedOperation r.op)

/-- The command frame of R70, once its first byte is known to be PFX_COMMAND: count, then CRC. -/
def decodeCommandFrame (p : Params) (count opcode param1 low high : Byte) (rest : List Byte) : Except DecodeError Instr :=
  let data := rest.take (rest.length - 2)
  if rest.length < 2 ∨ p.maxTransfer.toNat < Config.overhead + data.length then .error .noFrameLength
  else if count ≠ outCount data then .error .wrongCount
  else if rest.drop (rest.length - 2) ≠ (crc16Of (outBody opcode param1 (param2Of low high) data)).bytes then .error .wrongCrc
  else .ok (.outFrame opcode param1 (param2Of low high) data)

/-- R74: the three kinds of bus write to `dev_addr` (`dev`), and the zero-byte write to WAKE_ADDR. -/
def decodeBusWrite (p : Params) (dev a : BusAddr) (s : List Byte) : Except DecodeError Instr :=
  if a = p.wakeAddr ∧ s = [] then .ok .wakePulse
  else if a ≠ dev then .error (.unknownBusAddress a)
  else
    match s with
    | [] => .error .unknownPrefix
    | [b] =>
      if b = p.pfxIdle then .ok .ctrlIdle
      else if b = p.pfxSleep then .ok .ctrlSleep
      else if b = p.pfxCommand then .error .noFrameLength
      else .error .unknownPrefix
    | b :: count :: opcode :: param1 :: low :: high :: rest =>
      if b = p.pfxCommand then decodeCommandFrame p count opcode param1 low high rest
      else if b = p.pfxIdle ∨ b = p.pfxSleep then .error .noFrameLength
      else .error .unknownPrefix
    | b :: _ =>
      if b = p.pfxCommand ∨ b = p.pfxIdle ∨ b = p.pfxSleep then .error .noFrameLength else .error .unknownPrefix

/-- R72, R75: the inbound frame, its length, its count and its CRC. The four bytes 04 11 33 43 are WAKE_RESPONSE. -/
def decodeBusRead (s : List Byte) : Except DecodeError Instr :=
  if s = wakeResponseBytes then .ok .wakeResponse
  else if s.length < 3 ∨ Config.rxbufCap < s.length then .error .noFrameLength
  else if s.head? ≠ some (BitVec.ofNat 8 s.length) then .error .wrongCount
  else if s.drop (s.length - 2) ≠ (crc16Of (s.take (s.length - 2))).bytes then .error .wrongCrc
  else .ok (.inFrame ((s.drop 1).take (s.length - 3)))

/-- The whole decoder, with the register `dev_addr` as `dev`. -/
def decode (p : Params) (dev : BusAddr) : Input → Except DecodeError Instr
  | .request r => decodeRequest r
  | .busWrite a s => decodeBusWrite p dev a s
  | .busRead s => decodeBusRead s

/-- The encoding of an instruction, from the same tables: a request of R80 and R81, or the wire format of R70, R72, R74,
R75. -/
def encode (p : Params) (dev : BusAddr) : Instr → Input
  | .crcClr => .request ⟨0x10#8, .f0⟩
  | .crcShift d => .request ⟨0x11#8, .f1 d⟩
  | .crcByte b => .request ⟨0x12#8, .f2 b⟩
  | .crc16 data => .request ⟨0x13#8, .f3 (BitVec.ofNat 16 data.length) data⟩
  | .wake => .request ⟨0x20#8, .f0⟩
  | .idle => .request ⟨0x21#8, .f0⟩
  | .sleep => .request ⟨0x22#8, .f0⟩
  | .encode opcode param1 param2 data => .request ⟨0x30#8, .f4 opcode param1 param2 (BitVec.ofNat 16 data.length) data⟩
  | .decode => .request ⟨0x31#8, .f0⟩
  | .transmit => .request ⟨0x40#8, .f0⟩
  | .receive expectedLen => .request ⟨0x41#8, .f2 expectedLen⟩
  | .outFrame opcode param1 param2 data => .busWrite dev (outFrameBytes p.pfxCommand opcode param1 param2 data)
  | .inFrame payload => .busRead (inFrameBytes payload)
  | .ctrlIdle => .busWrite dev [p.pfxIdle]
  | .ctrlSleep => .busWrite dev [p.pfxSleep]
  | .wakePulse => .busWrite p.wakeAddr []
  | .wakeResponse => .busRead wakeResponseBytes

/-! ### The words of spec/opcode_table.json -/

/-- Byte `k` of a number whose bit 0 is the least significant bit of the first byte. -/
def byteAt (w k : Nat) : Byte := BitVec.ofNat 8 (w >>> (8 * k))

/-- The sixteen bits from bit `k` on. -/
def halfAt (w k : Nat) : Half := BitVec.ofNat 16 (w >>> k)

/-- The request whose bits are `w`: `op` in the first eight, the fields of its format (R81) in the order of R81 after
them, 0 above. -/
def requestOfBits (w : Nat) : Request :=
  let op := byteAt w 0
  let bytesFrom (k n : Nat) : List Byte := (List.range n).map fun j => byteAt w (k + j)
  { op := op
    fields :=
      if op = 0x11#8 then .f1 (w.testBit 8)
      else if op = 0x12#8 ∨ op = 0x41#8 then .f2 (byteAt w 1)
      else if op = 0x13#8 then .f3 (halfAt w 8) (bytesFrom 3 (halfAt w 8).toNat)
      else if op = 0x30#8 then
        .f4 (byteAt w 1) (byteAt w 2) (halfAt w 24) (halfAt w 40) (bytesFrom 7 (halfAt w 40).toNat)
      else .f0 }

/-- The input a word of the table stands for. The one row of 32 bits is the wire format WAKE_RESPONSE, whose pattern the
table writes "with byte 0 as the most significant byte"; every other row with a word is a request. -/
def inputOfWord (nbits w : Nat) : Input :=
  if nbits = 32 then .busRead [byteAt w 3, byteAt w 2, byteAt w 1, byteAt w 0] else .request (requestOfBits w)

/-- The instruction the decoder reads from a word of spec/opcode_table.json. No row with a word is a bus write, so the
parameters play no part. -/
def decodeTableWord (nbits w : Nat) : Option Instr :=
  (decode Config.params Config.devAddr (inputOfWord nbits w)).toOption

end Sys2Proof
end

