-- ==== Sys2Proof/Machine/State.lean ====
section
/-! DEFINITION. The state: the fourteen items of 10_state.md R20 (STATUS is the view `State.status` of Flags.lean), the
parameters the block was constructed with (R250), and the model's own record of what stands at the block's two
interfaces. Plain data throughout. -/

namespace Sys2Proof.Machine

/-- The power and protocol state `ps` (R28), in the order of its encoding 0 to 3. -/
inductive PowerState where
  | sleeping
  | idle
  | ready
  | awaitingResponse
  deriving DecidableEq, Repr

/-- The result codes of R220, in the order of their encoding 0 to 7. -/
inductive ResultCode where
  | ok
  | busError
  | noResponse
  | countMismatch
  | crcMismatch
  | invalidLength
  | payloadTooLarge
  | deviceRejected
  deriving DecidableEq, Repr

/-- A byte buffer: the bytes written since reset by index, indices strictly rising. An index that is not listed holds a
value the spec does not give (R37, U1). -/
abbrev Memory := List Host.Cell

/-- The canonical form of a buffer of `cap` bytes. An unlisted index holds no value the model knows, so no entry can
repeat what an unlisted index reads as. -/
abbrev Memory.wf (cap : Nat) (m : Memory) : Prop := m.Pairwise (fun a b => a.1 < b.1) ∧ ∀ c ∈ m, c.1 < cap

/-- The answer of one TR.write (R61). -/
inductive Ack where
  | ok
  | err
  deriving DecidableEq, Repr

/-- The answer of one TR.read (R62): failure is distinct from "zero bytes available". -/
inductive ReadAnswer where
  | err
  | bytes (s : List Byte)
  deriving DecidableEq, Repr

/-- What the environment has ready for the coming reads: one answer as it stands, or a response frame on the bus, which
reads consume in pieces of at most what they ask for (R51, R57). -/
inductive Pending where
  | answer (r : ReadAnswer)
  | frame (s : List Byte)
  deriving DecidableEq, Repr

/-- One call of a transport primitive with its answer (R60). -/
inductive Event where
  | wr (a : BusAddr) (s : List Byte) (r : Ack)
  | rd (a : BusAddr) (m : Nat) (r : ReadAnswer)
  | dly (n : Nat)
  deriving DecidableEq, Repr

/-- The outputs of the last completed operation that are not registers (R80). -/
inductive Output where
  | none
  /-- CRC16's pair `(lo, hi)` (R103). -/
  | crc (c : CrcPair)
  /-- DECODE's payload slice (R147). -/
  | payload (s : List Byte)
  /-- RECEIVE's `rxbuf[0 .. min(rx_total, 128))`, `rx_total`, `exhausted`, `overflow` (R162). -/
  | received (s : List Byte) (total : Byte) (exhausted overflow : Bool)
  deriving DecidableEq, Repr

/-- The block's registers, its construction parameters, and the model's record of its interfaces. -/
structure State where
  /-- `crc_reg`, the shift register (R21). -/
  crcReg : Half
  /-- `last_crc`, the last CRC the codec computed (R22). -/
  lastCrc : CrcPair
  /-- `rxbuf`, the reassembly buffer of 128 bytes (R23). -/
  rxbuf : Memory
  /-- `rx_total`, bytes delivered for the current response, saturating (R24). -/
  rxTotal : BitVec 8
  /-- `rx_expected`, the normalised expected length (R25). -/
  rxExpected : BitVec 8
  /-- `attempts`, the retry counter (R26). -/
  attempts : BitVec 5
  /-- `exhausted`: the retry budget ran out before the total was reached (R29). -/
  exhausted : Bool
  /-- `overflow`: at least one delivered byte was discarded (R29). -/
  overflow : Bool
  /-- `ps`, the power and protocol state (R28). -/
  ps : PowerState
  /-- `err`, the result code of the last operation (R30). -/
  err : ResultCode
  /-- `dev_addr`, the bus address of the device (R31). -/
  devAddr : BusAddr
  /-- `txbuf`, the outbound frame, 256 bytes (R32). -/
  txbuf : Memory
  /-- `tx_len`, the number of valid bytes in `txbuf`, 0 for none (R32). -/
  txLen : BitVec 9
  /-- The parameters of R12 the block was constructed with (R250); nothing writes them. -/
  cfg : Params
  /-- The model's own: the non-register outputs of the last completed operation (R80). -/
  output : Output
  /-- The model's own: what happens next at the block's interfaces, oldest first. -/
  inputs : List Input
  /-- The model's own: the answers the environment has ready for the coming TR.write calls (R61). -/
  writeAnswers : List Ack
  /-- The model's own: what the environment has ready for the coming TR.read calls (R62). -/
  readAnswers : List Pending
  /-- The model's own: how many free answers have been drawn. -/
  draws : Nat
  /-- The model's own: every transport event since reset, oldest first (R60). -/
  trace : List Event
  deriving DecidableEq, Repr

/-- No operation traps and every operation ends: "The block has no behaviour of the kinds `fault` or `stuck`"
(93_implementation_defined.md, after U13). So there is no reason for a fault. -/
inductive Fault where
  deriving DecidableEq, Repr

/-- The places where the spec gives no meaning (R233) and the step stops. -/
inductive Refusal where
  /-- Raised by `exec` alone for an instruction that has no meaning yet. Safe: nothing is claimed. -/
  | notModelled (mnemonic : String)
  /-- Raised by `step` for an input that stands for no instruction: an unassigned operation number (R82, U2), a record
  that is no request (R81), bus bytes that are none of the wire formats. Safe: nothing is claimed. -/
  | undecodable (e : DecodeError)
  /-- Raised by TRANSMIT with `tx_len` = 0: "a model refuses it" (R160, U4). Safe: nothing is claimed. -/
  | noValidFrame
  deriving DecidableEq, Repr

/-- The block right after construction (R37, R250). `last_crc` and the bytes of both buffers
are unspecified there, so they are free values (U1). -/
def State.reset : State where
  crcReg := 0x0000#16
  lastCrc := ⟨Config.unwrittenCrc.1, Config.unwrittenCrc.2⟩
  rxbuf := []
  rxTotal := 0#8
  rxExpected := 0#8
  attempts := 0#5
  exhausted := false
  overflow := false
  ps := .sleeping
  err := .ok
  devAddr := Config.devAddr
  txbuf := []
  txLen := 0#9
  cfg := Config.params
  output := .none
  inputs := []
  writeAnswers := []
  readAnswers := []
  draws := 0
  trace := []

end Sys2Proof.Machine
end

