-- ==== Sys2Proof/Machine/Flags.lean ====
section
/-! DEFINITION. The codes of `ps` (R28) and `err` (R220), the packed view STATUS (R35), and the two conditions that set a
flag (R29). -/

namespace Sys2Proof.Machine

/-- The 2-bit encoding of `ps` (R28). -/
def PowerState.code : PowerState → BitVec 2
  | .sleeping => 0#2
  | .idle => 1#2
  | .ready => 2#2
  | .awaitingResponse => 3#2

/-- The 3-bit encoding of a result code (R220). -/
def ResultCode.code : ResultCode → BitVec 3
  | .ok => 0#3
  | .busError => 1#3
  | .noResponse => 2#3
  | .countMismatch => 3#3
  | .crcMismatch => 4#3
  | .invalidLength => 5#3
  | .payloadTooLarge => 6#3
  | .deviceRejected => 7#3

/-- STATUS: bits 2:0 `err`, bit 3 `exhausted`, bit 4 `overflow`, bits 6:5 `ps`, bit 7 reads 0 (R35). -/
def State.status (s : State) : BitVec 8 :=
  0#1 ++ s.ps.code ++ BitVec.ofBool s.overflow ++ BitVec.ofBool s.exhausted ++ s.err.code

/-- The total has not reached the expected length (R162 lines 4 and 13). -/
def State.incomplete (s : State) : Bool := decide (s.rxTotal.toNat < s.rxExpected.toNat)

/-- The running count is within capacity, so that a delivered byte is stored and not discarded (R166). -/
def State.hasRoom (s : State) : Bool := decide (s.rxTotal.toNat < Config.rxbufCap)

end Sys2Proof.Machine
end

