-- ==== Sys2Proof/Machine/Ops.lean ====
section
/-! DEFINITION. The shared operations: the buffers (20_memory.md R50 to R58), the three transport calls (R60 to R63), and
how an operation ends, with a result or by `raise E` (R15, R231). -/

namespace Sys2Proof.Machine

/-! ### Buffers -/

/-- The byte written to index `i`, if one was. -/
def Memory.find : Memory → Nat → Option Byte
  | [], _ => none
  | c :: m, i => if c.1 = i then some c.2 else Memory.find m i

/-- Write one byte, keeping the indices strictly rising. -/
def Memory.write : Memory → Nat → Byte → Memory
  | [], i, b => [(i, b)]
  | c :: m, i, b =>
    if i < c.1 then (i, b) :: c :: m
    else if i = c.1 then (i, b) :: m
    else c :: Memory.write m i b

/-- `MemWrite(buf, i, n, v)` with `v` of `n` bytes (R15). -/
def Memory.writeList (m : Memory) (i : Nat) : List Byte → Memory
  | [] => m
  | b :: bs => Memory.writeList (m.write i b) (i + 1) bs

/-- Every index below `n` holds `b`. -/
def Memory.fill (n : Nat) (b : Byte) : Memory := (List.range n).map fun i => (i, b)

/-- `rxbuf[i]`; a byte nothing has written is a free value (R37, U1). -/
def State.readRx (s : State) (i : Nat) : Byte := (s.rxbuf.find i).getD (Config.unwrittenRx i)

/-- `txbuf[i]`; a byte nothing has written is a free value (R37, U1). -/
def State.readTx (s : State) (i : Nat) : Byte := (s.txbuf.find i).getD (Config.unwrittenTx i)

/-- `MemRead(rxbuf, i, n)`, the bytes `rxbuf[i .. i+n)` (R15). -/
def State.rxSlice (s : State) (i n : Nat) : List Byte := (List.range n).map fun k => s.readRx (i + k)

/-- `MemRead(txbuf, i, n)`, the bytes `txbuf[i .. i+n)` (R15). -/
def State.txSlice (s : State) (i n : Nat) : List Byte := (List.range n).map fun k => s.readTx (i + k)

/-! ### How an operation ends -/

/-- The end of an operation: `err` takes its result code (R30) and its outputs stand on the host port (R81). -/
def State.finish (s : State) (r : ResultCode) (o : Output) : State := { s with err := r, output := o }

/-- `return Ok(o)` (R15). -/
def State.complete (s : State) (o : Output) : State := s.finish .ok o

/-- `raise E` (R15, R231): the operation ends with result `E`; what it wrote before stays written, nothing else
happens: no vector, no mode change, nothing saved. There is no return from it but the next operation (R232). -/
def State.raiseError (s : State) (e : ResultCode) : State := s.finish e .none

/-- `ps <- S` (R15). -/
def State.setPs (s : State) (p : PowerState) : State := { s with ps := p }

/-- A write of the CRC register. -/
def State.setCrc (s : State) (r : Half) : State := { s with crcReg := r }

/-- The codec's CRC: the unit's register is left at the final value and `last_crc` holds the pair (R21, R22). -/
def State.setCodecCrc (s : State) (r : Half) : State := { s with crcReg := r, lastCrc := crcPair r }

/-! ### The transport -/

/-- One more event of the trace (R60). -/
def State.logEvent (s : State) (e : Event) : State := { s with trace := s.trace ++ [e] }

/-- What the next TR.write will answer: the environment's choice if it has made one, else a free value (R61, U8). -/
def State.nextAck (s : State) : Ack :=
  match s.writeAnswers with
  | [] => if Config.freeAck s.draws then .ok else .err
  | r :: _ => r

/-- The answer of a write is used up. -/
def State.dropAck (s : State) : State :=
  match s.writeAnswers with
  | [] => { s with draws := s.draws + 1 }
  | _ :: rest => { s with writeAnswers := rest }

/-- `TR.write(a, c)`: one event, with the answer the environment gives (R61). DESIGN CHOICE (log entry 24): no write drops
what stands on the bus for reading. -/
def State.trWrite (s : State) (a : BusAddr) (c : List Byte) : Ack × State :=
  (s.nextAck, s.dropAck.logEvent (.wr a c s.nextAck))

/-- What the next TR.read for up to `m` bytes will answer. A frame on the bus gives at most what is asked for, and so
does a free answer (R62). -/
def State.nextRead (s : State) (m : Nat) : ReadAnswer :=
  match s.readAnswers with
  | [] =>
    match Config.freeRead s.draws with
    | none => .err
    | some c => .bytes (c.take m)
  | .answer r :: _ => r
  | .frame c :: _ => .bytes (c.take m)

/-- A TR.read for up to `m` bytes "consumes bytes of the pending response" (R57): the rest of a frame stays on the bus.
DESIGN CHOICE (log entry 24): it stays there until reads take it. No idle byte, sleep byte, wake pulse or command frame
drops it, and the spec leaves open whether one does (R172, N11). -/
def State.dropRead (s : State) (m : Nat) : State :=
  match s.readAnswers with
  | [] => { s with draws := s.draws + 1 }
  | .answer _ :: rest => { s with readAnswers := rest }
  | .frame c :: rest => { s with readAnswers := if c.length ≤ m then rest else .frame (c.drop m) :: rest }

/-- `TR.read(a, m)`: one event, with the answer the environment gives (R62). -/
def State.trRead (s : State) (a : BusAddr) (m : Nat) : ReadAnswer × State :=
  (s.nextRead m, (s.dropRead m).logEvent (.rd a m (s.nextRead m)))

/-- `TR.delay_us(n)`: it has no answer and cannot fail (R63). -/
def State.trDelay (s : State) (n : Nat) : State := s.logEvent (.dly n)

/-- DEVICE's response bytes come to stand on the bus behind what is already there (R51, R72). -/
def State.offerFrame (s : State) (c : List Byte) : State := { s with readAnswers := s.readAnswers ++ [.frame c] }

end Sys2Proof.Machine
end

