-- ==== Sys2Proof/Machine/CrcUnit.lean ====
section
/-! DEFINITION. CRC_CLR, CRC_SHIFT, CRC_BYTE, CRC16 (40_crc16.md). They end only with `Ok` (R220) and do not write
`last_crc` (R22). -/

namespace Sys2Proof.Machine

/-- The outcome type of every meaning. -/
abbrev Result := Host.Outcome State Fault Refusal

/-- CRC_CLR (R100). -/
def execCrcClr (s : State) : Result := .next ((s.setCrc Config.crcSeed).complete .none)

/-- CRC_SHIFT d (R101). -/
def execCrcShift (d : Bool) (s : State) : Result := .next ((s.setCrc (crcShiftStep s.crcReg d)).complete .none)

/-- CRC_BYTE b (R102): it continues from the register. -/
def execCrcByte (b : Byte) (s : State) : Result := .next ((s.setCrc (crcByteStep s.crcReg b)).complete .none)

/-- CRC16 data (R103): clear, then every byte; the pair `(lo, hi)` of the final register is its output. -/
def execCrc16 (data : List Byte) (s : State) : Result :=
  .next ((s.setCrc (crcRegOf data)).complete (.crc (crc16Of data)))

end Sys2Proof.Machine
end

