-- ==== Sys2Proof/Machine/Codec.lean ====
section
/-! DEFINITION. ENCODE and DECODE (42_codec.md). Neither makes a transport call nor touches `ps`. -/

namespace Sys2Proof.Machine

/-- The frame of R70 goes to `txbuf` from index 0 on; bytes above it keep their old values (R140). -/
def State.putFrame (s : State) (frame : List Byte) : State :=
  { s with txbuf := s.txbuf.writeList 0 frame, txLen := BitVec.ofNat 9 frame.length }

/-- `tx_len <- 0`: there is no valid frame (R140 line 3). -/
def State.dropFrame (s : State) : State := { s with txLen := 0#9 }

/-- The body of ENCODE (R140): the size test comes before anything is written to `txbuf` (R142). -/
def runEncode (opcode param1 : Byte) (param2 : Half) (data : List Byte) (s : State) : State :=
  if s.cfg.maxTransfer.toNat < Config.overhead + data.length then s.dropFrame.raiseError .payloadTooLarge
  else
    ((s.putFrame (outFrameBytes s.cfg.pfxCommand opcode param1 param2 data)).setCodecCrc
      (crcRegOf (outBody opcode param1 param2 data))).complete .none

/-- The count test of R144 line 2: `L` < 3, `L` > 128, or `rxbuf[0]` ≠ `L`, in this order. -/
def State.countFails (s : State) : Bool :=
  decide (s.rxTotal.toNat < 3) || decide (Config.rxbufCap < s.rxTotal.toNat) || decide (s.readRx 0 ≠ s.rxTotal)

/-- The CRC of R144 line 3, over the first `L` - 2 bytes (R146). -/
def State.rxCrc (s : State) : Half := crcRegOf (s.rxSlice 0 (s.rxTotal.toNat - 2))

/-- The CRC test of R144 line 5: low byte against `rxbuf[L-2]`, high byte against `rxbuf[L-1]` (R146). -/
def State.crcFails (s : State) : Bool :=
  decide (s.rxSlice (s.rxTotal.toNat - 2) 2 ≠ (crcPair s.rxCrc).bytes)

/-- `decode_steps`, R144 lines 1 to 5: the result and the state; the count test first, the CRC test second (R148).
`last_crc` takes the recomputed pair whether or not it matches (R146). -/
def State.decodeSteps (s : State) : ResultCode × State :=
  if s.countFails then (.countMismatch, s)
  else if s.crcFails then (.crcMismatch, s.setCodecCrc s.rxCrc)
  else (.ok, s.setCodecCrc s.rxCrc)

/-- The payload slice `rxbuf[1 .. L-2)` of `L` - 3 bytes (R147). -/
def State.rxPayload (s : State) : List Byte := s.rxSlice 1 (s.rxTotal.toNat - 3)

/-- The body of DECODE (R144). -/
def runDecode (s : State) : State :=
  match s.decodeSteps with
  | (.ok, t) => t.complete (.payload t.rxPayload)
  | (e, t) => t.raiseError e

/-- ENCODE opcode, param1, param2, data (R140). -/
def execEncode (opcode param1 : Byte) (param2 : Half) (data : List Byte) (s : State) : Result :=
  .next (runEncode opcode param1 param2 data s)

/-- DECODE (R144). -/
def execDecode (s : State) : Result := .next (runDecode s)

end Sys2Proof.Machine
end

