-- ==== Sys2Proof/Machine/Transfer.lean ====
section
/-! DEFINITION. TRANSMIT and RECEIVE (43_transfer.md). -/

namespace Sys2Proof.Machine

/-! ### TRANSMIT -/

/-- The body of TRANSMIT when there is a frame (R160): one write of all `tx_len` bytes (R161). -/
def runTransmit (s : State) : State :=
  match s.trWrite s.devAddr (s.txSlice 0 s.txLen.toNat) with
  | (.err, t) => t.raiseError .busError
  | (.ok, t) => (t.setPs .awaitingResponse).complete .none

/-- TRANSMIT (R160). With `tx_len` = 0 "the operation has no meaning: a model refuses it" (U4). -/
def execTransmit (s : State) : Result := if s.txLen = 0#9 then .refused .noValidFrame else .next (runTransmit s)

/-! ### RECEIVE -/

/-- R162 lines 1 to 3: the clamp of R163, the sentinel fill of R164, and the engine's registers. -/
def State.startReceive (s : State) (expectedLen : Byte) : State :=
  { s with
    rxExpected := if expectedLen.toNat ≤ Config.rxbufCap then expectedLen else BitVec.ofNat 8 Config.rxbufCap
    rxbuf := Memory.fill Config.rxbufCap Config.sentinel
    rxTotal := 0#8
    attempts := 0#5
    exhausted := false
    overflow := false }

/-- R162 lines 10 to 12 for one delivered byte: stored while there is room, else discarded with `overflow` set, and
counted in both cases up to the saturation value (R24, R166). -/
def State.storeByte (s : State) (b : Byte) : State :=
  { s with
    rxbuf := if s.hasRoom then s.rxbuf.write s.rxTotal.toNat b else s.rxbuf
    overflow := if s.hasRoom then s.overflow else true
    rxTotal := if s.rxTotal.toNat < Config.rxTotalMax then s.rxTotal + 1#8 else s.rxTotal }

/-- R162 line 9: the bytes of one answer, in order. -/
def State.storeBytes (s : State) : List Byte → State
  | [] => s
  | b :: bs => State.storeBytes (s.storeByte b) bs

/-- R162 line 7. -/
def State.countAttempt (s : State) : State := { s with attempts := s.attempts + 1#5 }

/-- R162 line 5: how much the next read asks for (R165). -/
def State.chunk (s : State) : Nat := min Config.chunkMax (s.rxExpected.toNat - s.rxTotal.toNat)

/-- R162 lines 4 to 12. The first argument bounds the recursion; the loop makes at most 20 reads because `attempts`
starts at 0 (R167), so 20 is enough. -/
def State.receiveLoop : Nat → State → ResultCode × State
  | 0, s => (.ok, s)
  | fuel + 1, s =>
    if s.incomplete && decide (s.attempts.toNat < Config.attemptMax) then
      match s.trRead s.devAddr s.chunk with
      | (.err, t) => (.busError, t.countAttempt)
      | (.bytes c, t) => State.receiveLoop fuel (t.countAttempt.storeBytes c)
    else (.ok, s)

/-- R162 line 13, first half: `exhausted` records that the loop ended short (R168). -/
def State.noteExhausted (s : State) : State := { s with exhausted := s.incomplete }

/-- `receive_steps`, the body of R162 without its write of `ps` (R120). -/
def State.receiveSteps (s : State) (expectedLen : Byte) : ResultCode × State :=
  match (s.startReceive expectedLen).receiveLoop Config.attemptMax with
  | (.ok, t) => (.ok, t.noteExhausted)
  | (e, t) => (e, t)

/-- RECEIVE's outputs (R162). -/
def State.receivedOutput (s : State) : Output :=
  .received (s.rxSlice 0 (min s.rxTotal.toNat Config.rxbufCap)) s.rxTotal s.exhausted s.overflow

/-- The body of RECEIVE (R162): `ps` becomes Ready unless the attempts ran out (R168); a failed read ends it at once
(R169). -/
def runReceive (expectedLen : Byte) (s : State) : State :=
  match s.receiveSteps expectedLen with
  | (.ok, t) => (if t.exhausted then t else t.setPs .ready).complete t.receivedOutput
  | (e, t) => t.raiseError e

/-- RECEIVE expected_len (R162). -/
def execReceive (expectedLen : Byte) (s : State) : Result := .next (runReceive expectedLen s)

end Sys2Proof.Machine
end

