-- ==== Sys2Proof/Machine/Power.lean ====
section
/-! DEFINITION. WAKE, IDLE, SLEEP (41_power_state.md). -/

namespace Sys2Proof.Machine

/-- R120 lines 1 and 2: the wake pulse, whose answer is ignored (R121), and the wait. -/
def State.wakePulseAndWait (s : State) : State := (s.trWrite s.cfg.wakeAddr []).2.trDelay Config.tWhiUs

/-- R120 lines 5 to 11, after the four-byte read: exhaustion, signal byte, count, CRC, in this order. -/
def State.judgeWake (s : State) : State :=
  if s.exhausted then s.raiseError .noResponse
  else if s.readRx 1 ≠ Config.wakeSignal then s.raiseError .noResponse
  else
    match s.decodeSteps with
    | (.ok, t) => (t.setPs .ready).complete .none
    | (e, t) => t.raiseError e

/-- The body of WAKE (R120). -/
def runWake (s : State) : State :=
  match s.wakePulseAndWait.receiveSteps Config.wakeRespLen with
  | (.ok, t) => t.judgeWake
  | (e, t) => t.raiseError e

/-- The body of IDLE (R123). -/
def runIdle (s : State) : State :=
  match s.trWrite s.devAddr [s.cfg.pfxIdle] with
  | (.err, t) => t.raiseError .busError
  | (.ok, t) => (t.setPs .idle).complete .none

/-- R124 from the second write on. -/
def State.sendSleep (s : State) : State :=
  match s.trWrite s.devAddr [s.cfg.pfxSleep] with
  | (.err, t) => t.raiseError .busError
  | (.ok, t) => (t.setPs .sleeping).complete .none

/-- The body of SLEEP (R124): a failed idle write ends it before the sleep byte; a failed sleep write leaves `ps` at
Idle. -/
def runSleep (s : State) : State :=
  match s.trWrite s.devAddr [s.cfg.pfxIdle] with
  | (.err, t) => t.raiseError .busError
  | (.ok, t) => (t.setPs .idle).sendSleep

/-- WAKE (R120). -/
def execWake (s : State) : Result := .next (runWake s)

/-- IDLE (R123). -/
def execIdle (s : State) : Result := .next (runIdle s)

/-- SLEEP (R124). -/
def execSleep (s : State) : Result := .next (runSleep s)

end Sys2Proof.Machine
end

