-- ==== Sys2Proof/Machine/Wire.lean ====
section
/-! DEFINITION. The six wire formats of 30_encoding.md as bus transfers of their own. An outbound one is the transport
write the block's operations are built of; an inbound one puts DEVICE's frame on the bus for the reads that follow. A
transfer is no operation of the block, so it writes none of the block's registers (R28, R36, R65). -/

namespace Sys2Proof.Machine

/-- OUT_FRAME: the bus write of a command frame to `dev_addr` (R70). -/
def execOutFrame (opcode param1 : Byte) (param2 : Half) (data : List Byte) (s : State) : Result :=
  .next (s.trWrite s.devAddr (outFrameBytes s.cfg.pfxCommand opcode param1 param2 data)).2

/-- IN_FRAME: a response frame stands on the bus (R72). -/
def execInFrame (payload : List Byte) (s : State) : Result := .next (s.offerFrame (inFrameBytes payload))

/-- CTRL_IDLE: the bus write of `[PFX_IDLE]` to `dev_addr` (R74). -/
def execCtrlIdle (s : State) : Result := .next (s.trWrite s.devAddr [s.cfg.pfxIdle]).2

/-- CTRL_SLEEP: the bus write of `[PFX_SLEEP]` to `dev_addr` (R74). -/
def execCtrlSleep (s : State) : Result := .next (s.trWrite s.devAddr [s.cfg.pfxSleep]).2

/-- WAKE_PULSE: the zero-byte wake transmission to WAKE_ADDR (R75). -/
def execWakePulse (s : State) : Result := .next (s.trWrite s.cfg.wakeAddr []).2

/-- WAKE_RESPONSE: the frame 04 11 33 43 stands on the bus (R75). -/
def execWakeResponse (s : State) : Result := .next (s.offerFrame wakeResponseBytes)

end Sys2Proof.Machine
end

