-- ==== Sys2Proof/Machine/Dispatch.lean ====
section
/-! DEFINITION. One arm per row of spec/opcode_table.json. -/

namespace Sys2Proof.Machine

def exec (i : Instr) (s : State) : Host.Outcome State Fault Refusal :=
  match i with
  | .crcClr => Sys2Proof.Machine.execCrcClr s
  | .crcShift d => Sys2Proof.Machine.execCrcShift d s
  | .crcByte b => Sys2Proof.Machine.execCrcByte b s
  | .crc16 data => Sys2Proof.Machine.execCrc16 data s
  | .wake => Sys2Proof.Machine.execWake s
  | .idle => Sys2Proof.Machine.execIdle s
  | .sleep => Sys2Proof.Machine.execSleep s
  | .encode opcode param1 param2 data => Sys2Proof.Machine.execEncode opcode param1 param2 data s
  | .decode => Sys2Proof.Machine.execDecode s
  | .transmit => Sys2Proof.Machine.execTransmit s
  | .receive expectedLen => Sys2Proof.Machine.execReceive expectedLen s
  | .outFrame opcode param1 param2 data => Sys2Proof.Machine.execOutFrame opcode param1 param2 data s
  | .inFrame payload => Sys2Proof.Machine.execInFrame payload s
  | .ctrlIdle => Sys2Proof.Machine.execCtrlIdle s
  | .ctrlSleep => Sys2Proof.Machine.execCtrlSleep s
  | .wakePulse => Sys2Proof.Machine.execWakePulse s
  | .wakeResponse => Sys2Proof.Machine.execWakeResponse s

end Sys2Proof.Machine
end

