-- ==== Sys2Proof/Machine/Step.lean ====
section
/-! DEFINITION. One step: the block takes what stands first at its interfaces, decodes it and runs it to completion
(R13, R27). The block fetches no instructions and has no program counter (R27). -/

namespace Sys2Proof.Machine

/-- The step. With nothing at the interfaces "the block does nothing until the host issues an operation" (R251). An
input that stands for no instruction is refused (R82, U2). -/
def step (s : State) : Host.Outcome State Fault Refusal :=
  match s.inputs with
  | [] => .next s
  | x :: rest =>
    match decode s.cfg s.devAddr x with
    | .error e => .refused (.undecodable e)
    | .ok i => exec i { s with inputs := rest }

/-- The state in which a word of spec/opcode_table.json is the next thing at the block's interfaces. -/
def State.withFetchWord (s : State) (nbits w : Nat) : State := { s with inputs := inputOfWord nbits w :: s.inputs }

end Sys2Proof.Machine
end

