-- ==== Sys2Proof/Machine/Sequencer.lean ====
section
/-! DEFINITION. The command sequencer, the HOST agent's program (44_sequencer.md). None of it is state or logic of the
block (R7): it strings the block's operations together and reads their results. -/

namespace Sys2Proof.Sequencer

open Sys2Proof.Machine

/-! ### The transaction pattern (R180 to R183) -/

/-- How a payload is read (R181). -/
inductive Interp where
  | status
  | data (k : Nat)
  | info
  deriving DecidableEq, Repr

/-- What a host call returns: `Ok(value)`, an error of R220, or nothing, for a call the host's own contract forbids
(R196). -/
inductive Reply where
  | ok (value : List Byte)
  | error (e : ResultCode)
  | refused
  deriving DecidableEq, Repr

/-- R181. A payload of another length, or with another status byte, is `DeviceRejected`. DESIGN CHOICE (log entry 26): on
success `Info` gives the whole payload and `Status` no bytes; R181 names a returned value for `Data(k)` alone. -/
def interpret (ip : Interp) (payload : List Byte) : Reply :=
  match ip with
  | .status => if payload = [Config.statusOk] then .ok [] else .error .deviceRejected
  | .data k => if payload.length = k then .ok payload else .error .deviceRejected
  | .info => if payload[2]? = some Config.infoOk then .ok payload else .error .deviceRejected

/-- The arguments of ENCODE in one transaction (R180). -/
structure Command where
  opcode : Byte
  param1 : Byte
  param2 : Half
  data : List Byte
  deriving DecidableEq, Repr

/-- How a transaction ended: what the host returns, whether the command frame was transmitted, and the block after it. -/
structure Done where
  reply : Reply
  sent : Bool
  block : State
  deriving DecidableEq, Repr

/-- The payload DECODE returned. -/
def payloadOf (s : State) : List Byte :=
  match s.output with
  | .payload c => c
  | _ => []

/-- R180 lines 9 to 11, after the idle byte: exhaustion, validation, interpretation. -/
def validate (ip : Interp) (s : State) : Done :=
  if s.exhausted then ⟨.error .noResponse, true, s⟩
  else if (runDecode s).err ≠ .ok then ⟨.error (runDecode s).err, true, runDecode s⟩
  else ⟨interpret ip (payloadOf (runDecode s)), true, runDecode s⟩

/-- R180 line 8. -/
def idleThenValidate (ip : Interp) (s : State) : Done :=
  if (runIdle s).err ≠ .ok then ⟨.error (runIdle s).err, true, runIdle s⟩ else validate ip (runIdle s)

/-- R180 lines 6 and 7, after the frame was transmitted. -/
def collect (tExec : Nat) (expectedLen : Byte) (ip : Interp) (s : State) : Done :=
  let t := runReceive expectedLen (s.trDelay tExec)
  if t.err ≠ .ok then ⟨.error t.err, true, t⟩ else idleThenValidate ip t

/-- R180 line 5. ENCODE has left a frame, so TRANSMIT is not refused. -/
def transmitThenCollect (tExec : Nat) (expectedLen : Byte) (ip : Interp) (s : State) : Done :=
  if (runTransmit s).err ≠ .ok then ⟨.error (runTransmit s).err, false, runTransmit s⟩
  else collect tExec expectedLen ip (runTransmit s)

/-- R180 lines 2 to 4: after a failed WAKE the host idles the device and returns the WAKE error, except after a
`BusError` (R183). -/
def wakeThenTransmit (tExec : Nat) (expectedLen : Byte) (ip : Interp) (s : State) : Done :=
  if (runWake s).err = .busError then ⟨.error .busError, false, runWake s⟩
  else if (runWake s).err ≠ .ok then ⟨.error (runWake s).err, false, runIdle (runWake s)⟩
  else transmitThenCollect tExec expectedLen ip (runWake s)

/-- XACT (R180): encode, wake, transmit, delay, receive, idle, validate, interpret. -/
def xact (c : Command) (tExec : Nat) (expectedLen : Byte) (ip : Interp) (s : State) : Done :=
  let t := runEncode c.opcode c.param1 c.param2 c.data s
  if t.err ≠ .ok then ⟨.error t.err, false, t⟩ else wakeThenTransmit tExec expectedLen ip t

/-- R182: `expected_len` is 3 + the payload length awaited. -/
def responseLen (payloadLen : Nat) : Byte := BitVec.ofNat 8 (3 + payloadLen)

/-! ### What the catalogue needs (R186) -/

/-- The lock targets (R188). -/
inductive LockZone where
  | config
  | dataAndOtp
  | slot0
  deriving DecidableEq, Repr

/-- The zones (R18, R190). -/
inductive Zone where
  | config
  | otp
  | data
  deriving DecidableEq, Repr

/-- "one of 16 addressable key/data storage units" (R18). -/
abbrev Slot := Fin 16

/-- The values R186 leaves open, as a host program's arguments: opcodes, modes, zone ids, delays, and which of `param1`
and `param2` carries what. -/
structure Catalogue where
  opInfo : Byte
  opLock : Byte
  opRandom : Byte
  opRead : Byte
  opWrite : Byte
  opGenKey : Byte
  opNonce : Byte
  opSign : Byte
  opVerify : Byte
  opSha : Byte
  /-- T_EXEC(op), the processing delay in microseconds (R12). -/
  tExec : Byte → Nat
  /-- INFO_MODE_REVISION: "param1 = revision mode" (R187). -/
  infoRevision : Byte
  infoParam2 : Half
  infoData : List Byte
  /-- The payload length of `getInfo` is not in the source (N3), but that it is at least 3 (R187). -/
  infoPayloadLen : Nat
  lockFields : LockZone → Byte × Half
  randomFields : Byte × Half
  /-- Bits 6:0 of the zone id (R77). -/
  zoneBits : Zone → BitVec 7
  /-- Where the zone id and the address go in a read frame (N5, N6). -/
  readFields : Byte → Nat → Byte × Half
  writeFields : Byte → Nat → Byte × Half
  genKeyCreate : Byte
  genKeyPublic : Byte
  genKeyFields : Byte → Slot → Byte × Half
  noncePassthrough : Byte
  nonceFields : Byte → Byte × Half
  signMode : Byte
  signFields : Byte → Slot → Byte × Half
  verifyExternalMode : Byte
  verifyStoredMode : Byte
  verifyExternalFields : Byte → Byte × Half
  verifyStoredFields : Byte → Slot → Byte × Half
  shaStart : Byte
  shaUpdate : Byte
  shaEnd : Byte
  shaFields : Byte → Byte × Half
  /-- The addresses of the four 32-byte blocks of the configuration zone (R255); their format is not in the source. -/
  configAddress : Nat → Nat

/-- Every processing delay is 1000 to 115000 microseconds (R12), and the response of `getInfo` has "at least 3 payload
bytes" (R187) and fits a frame (R73). -/
def Catalogue.Legal (k : Catalogue) : Prop :=
  (∀ op, 1000 ≤ k.tExec op ∧ k.tExec op ≤ 115000) ∧ 3 ≤ k.infoPayloadLen ∧ k.infoPayloadLen + 3 ≤ Config.rxbufCap

/-! ### The HOST agent's own state -/

/-- The block, and what the host software keeps beside it: the bit of R196 and the cached configuration zone of R45, with
whether a zone write or lock has made it stale (R266). -/
structure HostState where
  block : State
  tempkeyLoaded : Bool
  snapshot : Option (List Byte)
  stale : Bool
  deriving DecidableEq, Repr

/-- The host over a block just constructed: nothing loaded, nothing cached. -/
def HostState.start : HostState :=
  { block := State.reset, tempkeyLoaded := false, snapshot := none, stale := false }

/-- One transaction run by the host. -/
def HostState.run (h : HostState) (k : Catalogue) (c : Command) (expectedLen : Byte) (ip : Interp) : Done :=
  xact c (k.tExec c.opcode) expectedLen ip h.block

/-- The host's `sleep()`: the temp-key bit is cleared (R196). -/
def hostSleep (h : HostState) : HostState := { h with block := runSleep h.block, tempkeyLoaded := false }

/-- The host's `idle()`: the temp-key bit is kept (R196). -/
def hostIdle (h : HostState) : HostState := { h with block := runIdle h.block }

/-! ### The operation catalogue (R187 to R199) -/

/-- `getInfo()` (R187). -/
def getInfo (k : Catalogue) (h : HostState) : Reply × HostState :=
  let x := h.run k ⟨k.opInfo, k.infoRevision, k.infoParam2, k.infoData⟩ (responseLen k.infoPayloadLen) .info
  (x.reply, { h with block := x.block })

/-- `lock(zone)` (R188): a transmitted lock frame makes the cached snapshot stale (R266, R269). -/
def lock (k : Catalogue) (zone : LockZone) (h : HostState) : Reply × HostState :=
  let x := h.run k ⟨k.opLock, (k.lockFields zone).1, (k.lockFields zone).2, []⟩ (responseLen 1) .status
  (x.reply, { h with block := x.block, stale := h.stale || x.sent })

/-- `updateRandom()` (R189). -/
def updateRandom (k : Catalogue) (h : HostState) : Reply × HostState :=
  let x := h.run k ⟨k.opRandom, k.randomFields.1, k.randomFields.2, []⟩ (responseLen 32) (.data 32)
  (x.reply, { h with block := x.block })

/-- The zone-id byte: bit 7 is 1 for a 32-byte transfer and 0 for a 4-byte one, bits 6:0 name the zone (R77, R190). -/
def zoneId (k : Catalogue) (zone : Zone) (length : Nat) : Byte := BitVec.ofBool (decide (length = 32)) ++ k.zoneBits zone

/-- `readZone(zone, address, length)` (R190): a length other than 4 or 32 is `InvalidLength` before any bus activity. -/
def readZone (k : Catalogue) (zone : Zone) (address length : Nat) (h : HostState) : Reply × HostState :=
  if length = 4 ∨ length = 32 then
    let f := k.readFields (zoneId k zone length) address
    let x := h.run k ⟨k.opRead, f.1, f.2, []⟩ (responseLen length) (.data length)
    (x.reply, { h with block := x.block })
  else (.error .invalidLength, h)

/-- `writeZone(zone, address, length, bytes)` (R191), `length` being the number of bytes to write. A transmitted write
makes the cached snapshot stale (R266). -/
def writeZone (k : Catalogue) (zone : Zone) (address : Nat) (bytes : List Byte) (h : HostState) : Reply × HostState :=
  if bytes.length = 4 ∨ bytes.length = 32 then
    let f := k.writeFields (zoneId k zone bytes.length) address
    let x := h.run k ⟨k.opWrite, f.1, f.2, bytes⟩ (responseLen 1) .status
    (x.reply, { h with block := x.block, stale := h.stale || x.sent })
  else (.error .invalidLength, h)

/-- `genKeyPair(slot)` (R192). -/
def genKeyPair (k : Catalogue) (slot : Slot) (h : HostState) : Reply × HostState :=
  let f := k.genKeyFields k.genKeyCreate slot
  let x := h.run k ⟨k.opGenKey, f.1, f.2, []⟩ (responseLen 64) (.data 64)
  (x.reply, { h with block := x.block })

/-- `genPublicKey(slot)` (R193). -/
def genPublicKey (k : Catalogue) (slot : Slot) (h : HostState) : Reply × HostState :=
  let f := k.genKeyFields k.genKeyPublic slot
  let x := h.run k ⟨k.opGenKey, f.1, f.2, []⟩ (responseLen 64) (.data 64)
  (x.reply, { h with block := x.block })

/-- `loadTempKey(data32)` (R194): the bit is set by a successful one (R196). -/
def loadTempKey (k : Catalogue) (data : Vector Byte 32) (h : HostState) : Reply × HostState :=
  let f := k.nonceFields k.noncePassthrough
  let x := h.run k ⟨k.opNonce, f.1, f.2, data.toList⟩ (responseLen 1) .status
  (x.reply, { h with block := x.block, tempkeyLoaded := h.tempkeyLoaded || decide (x.reply = .ok []) })

/-- `sign(slot)` (R195). DESIGN CHOICE (log entry 25): it carries the slot and the mode alone, with no data; the source does
not say whether `sign` takes further parameters, such as a key type or a message source (N24). With the bit clear it is the illegal transition of R196 and is refused; a transmitted frame
consumes the temp register whatever the call returns (R196). -/
def sign (k : Catalogue) (slot : Slot) (h : HostState) : Reply × HostState :=
  if h.tempkeyLoaded then
    let f := k.signFields k.signMode slot
    let x := h.run k ⟨k.opSign, f.1, f.2, []⟩ (responseLen 64) (.data 64)
    (x.reply, { h with block := x.block, tempkeyLoaded := !x.sent })
  else (.refused, h)

/-- The verify transaction after the message has been loaded; it consumes the temp register (R196). DESIGN CHOICE (log
entry 25): the two verify calls carry the data of R197 and R198 and the mode alone (N24). -/
def verifyWith (k : Catalogue) (f : Byte × Half) (data : List Byte) (h : HostState) : Reply × HostState :=
  let x := h.run k ⟨k.opVerify, f.1, f.2, data⟩ (responseLen 1) .status
  (x.reply, { h with block := x.block, tempkeyLoaded := h.tempkeyLoaded && !x.sent })

/-- `verifyExternal(message32, signature64, publicKey64)` (R197): first `loadTempKey(message32)`, whose error ends it. -/
def verifyExternal (k : Catalogue) (message : Vector Byte 32) (signature publicKey : Vector Byte 64) (h : HostState) :
    Reply × HostState :=
  match loadTempKey k message h with
  | (.ok _, h') => verifyWith k (k.verifyExternalFields k.verifyExternalMode) (signature.toList ++ publicKey.toList) h'
  | (e, h') => (e, h')

/-- `verifyStored(message32, signature64, slot)` (R198). -/
def verifyStored (k : Catalogue) (message : Vector Byte 32) (signature : Vector Byte 64) (slot : Slot) (h : HostState) :
    Reply × HostState :=
  match loadTempKey k message h with
  | (.ok _, h') => verifyWith k (k.verifyStoredFields k.verifyStoredMode slot) signature.toList h'
  | (e, h') => (e, h')

/-- One transaction of the streaming hash (R199). -/
def shaXact (k : Catalogue) (mode : Byte) (data : List Byte) (expectedLen : Byte) (ip : Interp) (h : HostState) :
    Reply × HostState :=
  let x := h.run k ⟨k.opSha, (k.shaFields mode).1, (k.shaFields mode).2, data⟩ expectedLen ip
  (x.reply, { h with block := x.block })

/-- The full 64-byte blocks, one Update each; the first that fails ends the hash (R199, R268). -/
def shaUpdates (k : Catalogue) : List (List Byte) → HostState → Reply × HostState
  | [], h => (.ok [], h)
  | b :: bs, h =>
    match shaXact k k.shaUpdate b (responseLen 1) .status h with
    | (.ok _, h') => shaUpdates k bs h'
    | (e, h') => (e, h')

/-- The full blocks of `data`: `data[64j .. 64j+64)` for `j` below `len` div 64 (R199). -/
def shaBlocks (data : List Byte) : List (List Byte) :=
  (List.range (data.length / 64)).map fun j => (data.drop (64 * j)).take 64

/-- The remainder, 0 to 63 bytes (R199). -/
def shaRemainder (data : List Byte) : List Byte := data.drop (64 * (data.length / 64))

/-- `sha256(data, len)` (R199): Start, one Update per full block, End with the remainder. -/
def sha256 (k : Catalogue) (data : List Byte) (h : HostState) : Reply × HostState :=
  match shaXact k k.shaStart [] (responseLen 1) .status h with
  | (.ok _, h1) =>
    match shaUpdates k (shaBlocks data) h1 with
    | (.ok _, h2) => shaXact k k.shaEnd (shaRemainder data) (responseLen 32) (.data 32) h2
    | (e, h2) => (e, h2)
  | (e, h1) => (e, h1)

/-! ### The configuration snapshot (R45, R255, R266) -/

/-- The blocks `j` to `j + n - 1` of the configuration zone, 32 bytes each, joined behind `got`. -/
def readBlocks (k : Catalogue) : Nat → Nat → List Byte → HostState → Reply × HostState
  | 0, _, got, h => (.ok got, h)
  | n + 1, j, got, h =>
    match readZone k .config (k.configAddress j) 32 h with
    | (.ok c, h') => readBlocks k n (j + 1) (got ++ c) h'
    | (e, h') => (e, h')

/-- The explicit zone read that produces the snapshot: four `readZone` calls of length 32 (R255). It is cached only when
all four succeed, and nothing else refreshes it (R45, R266). -/
def readSnapshot (k : Catalogue) (h : HostState) : Reply × HostState :=
  match readBlocks k 4 0 [] h with
  | (.ok c, h') => (.ok c, { h' with snapshot := some c, stale := false })
  | (e, h') => (e, h')

/-- The "fixed byte offsets" of the configuration zone, which the source does not give (R45, N12): a parameter table,
bounded by `SnapshotLayout.Legal`. -/
structure SnapshotLayout where
  /-- The two spans of the serial number, offset and length. -/
  serialFirst : Nat × Nat
  serialSecond : Nat × Nat
  revision : Nat
  configLock : Nat
  otpLock : Nat
  slot0Lock : Nat
  slotConfig : Nat
  keyConfig : Nat
  deriving DecidableEq, Repr

/-- What R45 says of the layout: the serial number has 10 bytes in two non-contiguous spans, the revision number 4 bytes, each
of the two tables 16 words of 16 bits, and everything lies within the 128 bytes. That a table's words follow one another
is log entry 21. -/
abbrev SnapshotLayout.Legal (l : SnapshotLayout) : Prop :=
  0 < l.serialFirst.2 ∧ 0 < l.serialSecond.2 ∧ l.serialFirst.2 + l.serialSecond.2 = 10 ∧
    (l.serialFirst.1 + l.serialFirst.2 < l.serialSecond.1 ∨ l.serialSecond.1 + l.serialSecond.2 < l.serialFirst.1) ∧
    l.serialFirst.1 + l.serialFirst.2 ≤ 128 ∧ l.serialSecond.1 + l.serialSecond.2 ≤ 128 ∧ l.revision + 4 ≤ 128 ∧
    l.configLock < 128 ∧ l.otpLock < 128 ∧ l.slot0Lock < 128 ∧ l.slotConfig + 32 ≤ 128 ∧ l.keyConfig + 32 ≤ 128

/-- The serial number: 10 bytes in "two non-contiguous spans" (R45), the first before the second (log entry 21). -/
def serialNumber (l : SnapshotLayout) (c : List Byte) : List Byte :=
  (c.drop l.serialFirst.1).take l.serialFirst.2 ++ (c.drop l.serialSecond.1).take l.serialSecond.2

/-- The revision number, 4 bytes (R45). -/
def revisionNumber (l : SnapshotLayout) (c : List Byte) : List Byte := (c.drop l.revision).take 4

/-- A lock-status byte: 0x55 is unlocked, 0x00 is locked; of any other value the source says nothing (R44, R78). -/
def lockStatus (zone : List Byte) (offset : Nat) : Option Bool :=
  if zone[offset]? = some Config.unlocked then some false
  else if zone[offset]? = some Config.locked then some true
  else none

/-- The two bytes of one per-slot configuration word in the order they stand in the zone; no byte order of these words
is given (R45). DESIGN CHOICE (log entry 21): a table is 16 words one after another, two bytes each, in ascending order of
the slots; the source gives no layout (N12). -/
def slotWord (table : Nat) (c : List Byte) (slot : Slot) : List Byte := (c.drop (table + 2 * slot.val)).take 2

/-- The 16 words of a table, by slot. -/
def slotTable (table : Nat) (c : List Byte) : List (List Byte) := (List.finRange 16).map (slotWord table c)

/-- The snapshot "decoded into" its parts (R45). -/
structure SlotConfiguration where
  serial : List Byte
  revision : List Byte
  /-- The lock-status flags; none where the byte is neither pattern of R44. -/
  configLocked : Option Bool
  otpLocked : Option Bool
  slot0Locked : Option Bool
  /-- The two tables, 16 words each. -/
  slotWords : List (List Byte)
  keyWords : List (List Byte)
  deriving DecidableEq, Repr

/-- R45: the snapshot decoded. -/
def decodeSnapshot (l : SnapshotLayout) (c : List Byte) : SlotConfiguration where
  serial := serialNumber l c
  revision := revisionNumber l c
  configLocked := lockStatus c l.configLock
  otpLocked := lockStatus c l.otpLock
  slot0Locked := lockStatus c l.slot0Lock
  slotWords := slotTable l.slotConfig c
  keyWords := slotTable l.keyConfig c

end Sys2Proof.Sequencer
end

