-- ==== Sys2Proof/Machine/Duty.lean ====
section
/-! DEFINITION. Whether the duties of R260 to R265 and the order of R126 were kept, judged from the trace: the timing windows
and sequencing duties whose breach leaves the device's state unknown (R46, R270, U7). Where the trace does not tell, the
judgement is "broken", so that no claim about the device rests on a doubtful case; the one exception is named at
`Watch.mayRead` (log entry 17). -/

namespace Sys2Proof.Machine

/-- What a judgement of the duties needs and the trace does not show: T_EXEC and the commands that load and use the temp
register (R186), the low time of the wake pulse (R260), and that there is one owner (R264). -/
structure Premises where
  catalogue : Sequencer.Catalogue
  lowLongEnough : Bool
  oneOwner : Bool

/-- Where the exchange with the device stands. -/
inductive Phase where
  /-- Nothing was sent yet, or an idle or sleep byte last. -/
  | resting
  /-- A wake pulse was sent. -/
  | woken
  /-- A command frame with this opcode was transmitted. -/
  | commanded (opcode : Byte)
  deriving DecidableEq, Repr

/-- What is remembered of a trace. -/
structure Watch where
  phase : Phase
  /-- Microseconds waited since the last pulse or frame (R261, R262). -/
  waited : Nat
  /-- Reads since the last pulse or frame. -/
  reads : Nat
  /-- One of those reads answered `err`. -/
  failed : Bool
  /-- The bytes those reads delivered. -/
  got : List Byte
  /-- The last frame was a load of the temp register. -/
  loading : Bool
  /-- The temp register was loaded, and neither used nor cleared since (R265). -/
  loaded : Bool
  /-- A duty was broken. -/
  broken : Bool
  deriving DecidableEq, Repr

/-- Before the first event. -/
def Watch.start (e : Premises) : Watch :=
  { phase := .resting, waited := 0, reads := 0, failed := false, got := [], loading := false, loaded := false,
    broken := !e.oneOwner }

/-- A duty was broken if it was before, or if `kept` is false. -/
def Watch.judge (w : Watch) (kept : Bool) : Watch := { w with broken := w.broken || !kept }

/-- The response awaited is there: the wake response, or at least as many bytes as the first one counts (R72), that being a
length a frame can have (R73). -/
def Watch.complete (w : Watch) : Bool :=
  match w.phase with
  | .resting => false
  | .woken => decide (w.got = wakeResponseBytes)
  | .commanded _ =>
    match w.got with
    | [] => false
    | count :: _ => decide (3 ≤ count.toNat ∧ count.toNat ≤ Config.rxbufCap ∧ count.toNat ≤ w.got.length)

/-- A new exchange begins: nothing waited for and nothing read yet. -/
def Watch.begin (w : Watch) (p : Phase) (loading : Bool) : Watch :=
  { w with phase := p, waited := 0, reads := 0, failed := false, got := [], loading := loading }

/-- The wake pulse: held low long enough (R260), and sent by a WAKE from Sleeping or Idle (R126). -/
def Watch.pulse (w : Watch) (e : Premises) : Watch :=
  (w.judge (e.lowLongEnough && match w.phase with
    | .resting => true
    | .woken => !w.complete
    | .commanded _ => false)).begin .woken false

/-- The frame loads the temp register (R194). -/
def Premises.loads (e : Premises) (opcode param1 : Byte) (param2 : Half) : Bool :=
  decide (opcode = e.catalogue.opNonce ∧ (param1, param2) = e.catalogue.nonceFields e.catalogue.noncePassthrough)

/-- The frame uses the temp register up (R265). -/
def Premises.uses (e : Premises) (opcode : Byte) : Bool :=
  decide (opcode = e.catalogue.opSign ∨ opcode = e.catalogue.opVerify)

/-- A command frame: only to a device that answered the wake, and after the response before was read (R125, R263); one that
uses the temp register only after a load immediately before (R265). A frame answered `err` begins no exchange, but may have
used the temp register up. -/
def Watch.frame (w : Watch) (e : Premises) (opcode param1 : Byte) (param2 : Half) (r : Ack) : Watch :=
  let judged := w.judge (w.complete && (!e.uses opcode || w.loaded))
  match r with
  | .ok => { judged.begin (.commanded opcode) (e.loads opcode param1 param2) with loaded := false }
  | .err => { judged with loading := false, loaded := false }

/-- A read: of the wake response after the wait of R261 and within one WAKE, or of a response after the processing delay of
the command (R262). DESIGN CHOICE (log entry 17): a read after the counted bytes of the response came is no breach. It may
belong to a RECEIVE that asked for more than the device sent (R200), and R260 to R265 name no duty against it; a RECEIVE
issued from Ready (R126) looks the same in the trace. -/
def Watch.mayRead (w : Watch) (e : Premises) : Bool :=
  match w.phase with
  | .resting => false
  | .woken => decide (Config.tWhiUs ≤ w.waited ∧ w.reads < Config.attemptMax ∧ w.failed = false ∧
      w.got.length < Config.wakeRespLen.toNat)
  | .commanded opcode => decide (e.catalogue.tExec opcode ≤ w.waited)

/-- The bytes of a read join those before; the success status of a load means the temp register is loaded (R194). -/
def Watch.read (w : Watch) (e : Premises) (ans : ReadAnswer) : Watch :=
  let judged := w.judge (w.mayRead e)
  match ans with
  | .err => { judged with reads := w.reads + 1, failed := true }
  | .bytes c => { judged with
      reads := w.reads + 1
      got := w.got ++ c
      loaded := w.loaded || (w.loading && decide (w.got ++ c = inFrameBytes [Config.statusOk])) }

/-- A sleep byte: SLEEP sends it behind an idle byte (R124), and only reading the response, or IDLE and a new WAKE, ends an
exchange (R263). DESIGN CHOICE (log entry 17): one with no idle byte before it, while an exchange is open, counts as a
breach; the spec does not say what it does to the exchange. Whether it was taken or not, what is remembered of a loaded temp
register is cleared (R265). -/
def Watch.sleepByte (w : Watch) : Watch :=
  { w.judge (decide (w.phase = .resting)) with loading := false, loaded := false }

/-- The wait after a wake pulse is not over (R121, R261). -/
def Watch.settling (w : Watch) : Bool := decide (w.phase = .woken ∧ w.waited < Config.tWhiUs)

/-- One write, when it may be made. An idle byte that was taken ends the exchange (R263), also while a command is still being
processed (R123: "Always safe to call"); one answered `err` does not (log entry 17). A write that is none of those of R74 counts as a breach: what the device does then is not stated
(U10). -/
def Watch.write (w : Watch) (e : Premises) (p : Params) (dev a : BusAddr) (c : List Byte) (r : Ack) : Watch :=
  if a = p.wakeAddr ∧ c = [] then w.pulse e
  else if a ≠ dev then w.judge false
  else if c = [p.pfxIdle] then
    match r with
    | .ok => { w with phase := .resting, loading := false }
    | .err => w
  else if c = [p.pfxSleep] then
    match r with
    | .ok => { w.sleepByte with phase := .resting }
    | .err => w.sleepByte
  else
    match c with
    | b :: _ :: opcode :: param1 :: low :: high :: _ =>
      if b = p.pfxCommand then w.frame e opcode param1 (param2Of low high) r else w.judge false
    | _ => w.judge false

/-- One transport event. "No data may be exchanged" during the wait after a pulse (R121). DESIGN CHOICE (log entry 17): every
write inside that wait counts as a breach, an idle byte and a second pulse too; the spec gives no consequence. -/
def watchEvent (e : Premises) (p : Params) (dev : BusAddr) (w : Watch) : Event → Watch
  | .wr a c r => (w.judge (!w.settling)).write e p dev a c r
  | .rd a _ ans => if a = dev then w.read e ans else w.judge false
  | .dly n => { w with waited := w.waited + n }

/-- What is remembered after a trace. -/
def watchAfter (e : Premises) (p : Params) (dev : BusAddr) (w : Watch) (tr : List Event) : Watch :=
  tr.foldl (watchEvent e p dev) w

/-- What is remembered of the trace since reset. -/
def State.watch (s : State) (e : Premises) : Watch := watchAfter e s.cfg s.devAddr (.start e) s.trace

/-- The wait after a wake pulse is not over (R121, R261). WAKE itself always ends it. -/
def State.wakeSettling (s : State) (e : Premises) : Bool := (s.watch e).settling

/-- A duty of R260 to R265, or the order of R126, was broken, as far as the trace and the premises tell. -/
def State.dutyBroken (s : State) (e : Premises) : Bool := (s.watch e).broken

end Sys2Proof.Machine
end

