-- ==== Sys2Proof/Machine/Device.lean ====
section
/-! DEFINITION. The environment's view of DEVICE (10_state.md R40, R41, R42; 41_power_state.md R125, R128): which power
states the device may be in after a trace. The block cannot read any of it, so it is computed from the trace and is no
field of State. Where the spec leaves the outcome open the result lists every outcome it allows, and from the first broken
duty on it lists every device state (R46, R270, U7), so a claim that holds for all of them holds for the device (log
entry 17). -/

namespace Sys2Proof.Machine

/-- The device's own power states (R40). -/
inductive DevicePower where
  | sleeping
  | awake
  | idle
  deriving DecidableEq, Repr

/-- The hidden state R40 to R42 name: the power state, and whether the transient state (temp register, RNG seed) the
device had before it last went to Idle or Sleeping is still there. -/
structure DeviceState where
  power : DevicePower
  kept : Bool
  deriving DecidableEq, Repr

/-- Every device state: what is left to say after a broken duty (R46, R270, U7). -/
def DeviceState.all : List DeviceState :=
  [⟨.sleeping, false⟩, ⟨.sleeping, true⟩, ⟨.awake, false⟩, ⟨.awake, true⟩, ⟨.idle, false⟩, ⟨.idle, true⟩]

/-- What survives in each power state: in Idle the transient state does, in Sleeping it is discarded (R41, R128). -/
def DeviceState.survives (d : DeviceState) : Bool :=
  match d.power with
  | .awake => true
  | .idle => d.kept
  | .sleeping => !d.kept

/-- The wake pulse: from Sleeping or Idle the device wakes (R40), or it did not, of which only the response is evidence (R40).
DESIGN CHOICE (log entry 17): a second pulse to an awake device leaves it in any power state, and one still awake with its
transient state kept or not; the source says nothing of the pulse (N13). In Idle and Sleeping R41 says what survives. -/
def deviceAfterPulse (d : DeviceState) : List DeviceState :=
  match d.power with
  | .awake => DeviceState.all.filter DeviceState.survives
  | _ => [⟨.awake, d.kept⟩, d]

/-- The idle byte was taken: "the idle control byte takes it to `Idle`" (R40), which keeps an awake device's transient
state (R41). Only a wake brings a device out of Idle or Sleeping (R128), so an idle or sleeping one stays as it is. -/
def deviceAfterIdle (d : DeviceState) : List DeviceState :=
  match d.power with
  | .awake => [⟨.idle, true⟩]
  | .idle => [d]
  | .sleeping => [d]

/-- The sleep byte was taken: an awake device sleeps and discards transient state (R40, R41); an idle one sleeps or, as it
"ignores further I/O", stays idle and keeps it (U6); a sleeping one stays. -/
def deviceAfterSleep (d : DeviceState) : List DeviceState :=
  match d.power with
  | .awake => [⟨.sleeping, false⟩]
  | .idle => [⟨.sleeping, false⟩, d]
  | .sleeping => [⟨.sleeping, false⟩, d]

/-- One transport event. A write that answered `err` may or may not have reached the device. Command frames, reads and
delays change no power state while the duties are kept. -/
def deviceAfterEvent (p : Params) (dev : BusAddr) (d : DeviceState) : Event → List DeviceState
  | .wr a c r =>
    if a = p.wakeAddr ∧ c = [] then deviceAfterPulse d
    else if a = dev ∧ c = [p.pfxIdle] then
      match r with
      | .ok => deviceAfterIdle d
      | .err => d :: deviceAfterIdle d
    else if a = dev ∧ c = [p.pfxSleep] then
      match r with
      | .ok => deviceAfterSleep d
      | .err => d :: deviceAfterSleep d
    else [d]
  | .rd _ _ _ => [d]
  | .dly _ => [d]

/-- The device states a trace allows, from given ones, while the duties are kept. -/
def devicesAfter (p : Params) (dev : BusAddr) (ds : List DeviceState) (tr : List Event) : List DeviceState :=
  tr.foldl (fun acc e => acc.flatMap fun d => deviceAfterEvent p dev d e) ds

/-- The device states the spec allows now. At reset the device "is taken to start in `Sleeping`" (R37, D26), with nothing
kept. After a broken duty "no claim about the device's state may be made" (R270): every state is allowed. -/
def State.possibleDevices (s : State) (e : Premises) : List DeviceState :=
  if s.dutyBroken e then DeviceState.all else devicesAfter s.cfg s.devAddr [⟨.sleeping, false⟩] s.trace

end Sys2Proof.Machine
end

