-- ==== Sys2Proof/Safety.lean ====
section
/-! DEFINITION. What counts as a safe run: the host's duty before an operation (R126, R160), the transport events the block
may make (R62, R74, R83), the transport's contract (R62), and the invariant of the block's registers. -/

namespace Sys2Proof.Machine

/-- The column "legal `ps` before" of R126, a duty of the host. It stops nothing in the block (R28). -/
def legalBefore : Instr → PowerState → Bool
  | .wake, p => decide (p = .sleeping ∨ p = .idle)
  | .transmit, p => decide (p = .ready)
  | .receive _, p => decide (p = .awaitingResponse)
  | .crcClr, _ => true
  | .crcShift _, _ => true
  | .crcByte _, _ => true
  | .crc16 _, _ => true
  | .idle, _ => true
  | .sleep, _ => true
  | .encode _ _ _ _, _ => true
  | .decode, _ => true
  | .outFrame _ _ _ _, _ => true
  | .inFrame _, _ => true
  | .ctrlIdle, _ => true
  | .ctrlSleep, _ => true
  | .wakePulse, _ => true
  | .wakeResponse, _ => true

/-- The content of a command frame of R70 within the limit of R71. -/
def IsCommandFrame (p : Params) (c : List Byte) : Prop :=
  ∃ opcode param1 : Byte, ∃ param2 : Half, ∃ data : List Byte,
    Config.overhead + data.length ≤ p.maxTransfer.toNat ∧ c = outFrameBytes p.pfxCommand opcode param1 param2 data

/-- The transport calls the block makes: the wake transmission and the three writes of R74, reads of 1 to 32 bytes from
`dev_addr` (R62, R64), and the wait of 1500 (R235). -/
def Event.FromBlock (p : Params) (dev : BusAddr) : Event → Prop
  | .wr a c _ =>
    (a = p.wakeAddr ∧ c = []) ∨ (a = dev ∧ (c = [p.pfxIdle] ∨ c = [p.pfxSleep] ∨ IsCommandFrame p c))
  | .rd a m _ => a = dev ∧ 1 ≤ m ∧ m ≤ Config.chunkMax
  | .dly n => n = Config.tWhiUs

/-- The transport's contract for one event: a read gives at most what it was asked for (R62). -/
def Event.KeepsContract : Event → Prop
  | .rd _ m (.bytes c) => c.length ≤ m
  | _ => True

/-- The reassembly buffer: nothing written since construction, or every byte written and the sentinel at and above
`rx_total` (R164). -/
def State.RxFilled (s : State) : Prop :=
  (s.rxbuf = [] ∧ s.rxTotal = 0#8) ∨
    ∀ i < Config.rxbufCap, (s.rxbuf.find i).isSome ∧ (s.rxTotal.toNat ≤ i → s.rxbuf.find i = some Config.sentinel)

/-- `tx_len` is 0, or `txbuf[0 .. tx_len)` is a command frame (R32, R140). -/
def State.TxFramed (s : State) : Prop :=
  s.txLen = 0#9 ∨ (s.txLen.toNat ≤ Config.txbufCap ∧ IsCommandFrame s.cfg (s.txSlice 0 s.txLen.toNat))

/-- The invariant of the block's registers. -/
structure State.Inv (s : State) : Prop where
  /-- R12. -/
  cfgLegal : s.cfg.Legal
  /-- The canonical form of `rxbuf`, 128 bytes (R23). -/
  rxWf : Memory.wf Config.rxbufCap s.rxbuf
  /-- The canonical form of `txbuf`, 256 bytes (R32). -/
  txWf : Memory.wf Config.txbufCap s.txbuf
  /-- R164. -/
  rxFilled : s.RxFilled
  /-- R32, R140. -/
  txFramed : s.TxFramed
  /-- R25: range 0 to 128. -/
  expectedRange : s.rxExpected.toNat ≤ Config.rxbufCap
  /-- R26: range 0 to 20. -/
  attemptsRange : s.attempts.toNat ≤ Config.attemptMax
  /-- R29, R168. -/
  exhaustedMeans : s.exhausted = true → s.attempts.toNat = Config.attemptMax ∧ s.rxTotal.toNat < s.rxExpected.toNat
  /-- R29, R166. -/
  overflowMeans : s.overflow = decide (Config.rxbufCap < s.rxTotal.toNat)
  /-- R220: the block never produces these two codes. -/
  errOfBlock : s.err ≠ .invalidLength ∧ s.err ≠ .deviceRejected

/-- Every event of the trace is one the block makes. -/
def State.TraceFromBlock (s : State) : Prop := ∀ e ∈ s.trace, e.FromBlock s.cfg s.devAddr

/-- The bytes one event delivered to the block. -/
def Event.readBytes : Event → List Byte
  | .rd _ _ (.bytes c) => c
  | _ => []

/-- All bytes a list of events delivered, in order (R162 line 9). -/
def delivered (es : List Event) : List Byte := es.flatMap Event.readBytes

/-- The reads by which a transport that always delivers what is asked brings the bytes `c` (R171): 32 while more are
outstanding, then the remainder. -/
def readSchedule (dev : BusAddr) (c : List Byte) : List Event :=
  (List.range ((c.length + 31) / 32)).map fun j =>
    .rd dev (min Config.chunkMax (c.length - 32 * j)) (.bytes ((c.drop (32 * j)).take Config.chunkMax))

/-- The event is a read that answered `err`. -/
def Event.isFailedRead : Event → Bool
  | .rd _ _ .err => true
  | _ => false

/-- The registers of R20, less the view STATUS. -/
inductive Register where
  | crcReg | lastCrc | rxbuf | rxTotal | rxExpected | attempts | exhausted | overflow | ps | err | devAddr | txbuf | txLen
  deriving DecidableEq, Repr

/-- The `W` entries of the access matrix of R36; a bus transfer alone writes no register (R65). -/
def writesRegister : Instr → Register → Bool
  | .crcClr, r => decide (r = .crcReg ∨ r = .err)
  | .crcShift _, r => decide (r = .crcReg ∨ r = .err)
  | .crcByte _, r => decide (r = .crcReg ∨ r = .err)
  | .crc16 _, r => decide (r = .crcReg ∨ r = .err)
  | .wake, r => decide (r ≠ .devAddr ∧ r ≠ .txbuf ∧ r ≠ .txLen)
  | .idle, r => decide (r = .ps ∨ r = .err)
  | .sleep, r => decide (r = .ps ∨ r = .err)
  | .encode _ _ _ _, r => decide (r = .crcReg ∨ r = .lastCrc ∨ r = .err ∨ r = .txbuf ∨ r = .txLen)
  | .decode, r => decide (r = .crcReg ∨ r = .lastCrc ∨ r = .err)
  | .transmit, r => decide (r = .ps ∨ r = .err)
  | .receive _, r =>
    decide (r = .rxbuf ∨ r = .rxTotal ∨ r = .rxExpected ∨ r = .attempts ∨ r = .exhausted ∨ r = .overflow ∨ r = .ps ∨
      r = .err)
  | .outFrame _ _ _ _, _ => false
  | .inFrame _, _ => false
  | .ctrlIdle, _ => false
  | .ctrlSleep, _ => false
  | .wakePulse, _ => false
  | .wakeResponse, _ => false

/-- Whether the instruction makes transport calls: the column headings of R50 for the bus, and the outbound formats. -/
def usesBus : Instr → Bool
  | .wake => true
  | .idle => true
  | .sleep => true
  | .transmit => true
  | .receive _ => true
  | .outFrame _ _ _ _ => true
  | .ctrlIdle => true
  | .ctrlSleep => true
  | .wakePulse => true
  | .crcClr => false
  | .crcShift _ => false
  | .crcByte _ => false
  | .crc16 _ => false
  | .encode _ _ _ _ => false
  | .decode => false
  | .inFrame _ => false
  | .wakeResponse => false

/-- The result codes an operation can end with: the column "raised by (block)" of R220. -/
def mayEndWith : Instr → ResultCode → Bool
  | .crcClr, e => decide (e = .ok)
  | .crcShift _, e => decide (e = .ok)
  | .crcByte _, e => decide (e = .ok)
  | .crc16 _, e => decide (e = .ok)
  | .wake, e => decide (e = .ok ∨ e = .busError ∨ e = .noResponse ∨ e = .countMismatch ∨ e = .crcMismatch)
  | .idle, e => decide (e = .ok ∨ e = .busError)
  | .sleep, e => decide (e = .ok ∨ e = .busError)
  | .encode _ _ _ _, e => decide (e = .ok ∨ e = .payloadTooLarge)
  | .decode, e => decide (e = .ok ∨ e = .countMismatch ∨ e = .crcMismatch)
  | .transmit, e => decide (e = .ok ∨ e = .busError)
  | .receive _, e => decide (e = .ok ∨ e = .busError)
  | .outFrame _ _ _ _, _ => false
  | .inFrame _, _ => false
  | .ctrlIdle, _ => false
  | .ctrlSleep, _ => false
  | .wakePulse, _ => false
  | .wakeResponse, _ => false

/-- The instruction is one of the eleven operations of R80 and not a wire format. -/
def isOperation (i : Instr) : Bool := writesRegister i .err

/-- The instructions of a list run one after another, stopping where one does not give a next state. -/
def execAll : List Instr → State → Host.Outcome State Fault Refusal
  | [], s => .next s
  | i :: is, s =>
    match exec i s with
    | .next t => execAll is t
    | .fault f => .fault f
    | .refused r => .refused r

/-- The events an operation added to the trace keep the transport's contract (R62). -/
def KeepsContractSince (s t : State) : Prop := ∀ e ∈ t.trace.drop s.trace.length, e.KeepsContract

end Sys2Proof.Machine
end

