-- ==== Sys2Proof/Certificates/Slice0/Obligations.lean ====
section
/-! DEFINITION. The statements for the provers. Each docstring names the rule of spec/ it formalises; where a clause is the
model's own choice it names the log entry. `s.dropAck` and `s.nextAck` are the environment's write answers: what the next
transport write will be answered, and the state once that answer is used up. -/

open Sys2Proof Sys2Proof.Machine Sys2Proof.Sequencer

/-! ### Encoding -/

/-- R80, R81, R72, R74, R75: words written out from the tables decode to the instruction they stand for. -/
def Obligations.ListedWordsDecode : Prop :=
  ∀ (p : Params) (dev : BusAddr), p.Legal →
    decode p dev (.request ⟨0x10#8, .f0⟩) = .ok .crcClr ∧
    decode p dev (.request ⟨0x11#8, .f1 true⟩) = .ok (.crcShift true) ∧
    decode p dev (.request ⟨0x12#8, .f2 0x04#8⟩) = .ok (.crcByte 0x04#8) ∧
    decode p dev (.request ⟨0x13#8, .f3 2#16 [0x04#8, 0x11#8]⟩) = .ok (.crc16 [0x04#8, 0x11#8]) ∧
    decode p dev (.request ⟨0x20#8, .f0⟩) = .ok .wake ∧
    decode p dev (.request ⟨0x30#8, .f4 0x17#8 0x80#8 0x0000#16 0#16 []⟩) = .ok (.encode 0x17#8 0x80#8 0x0000#16 []) ∧
    decode p dev (.request ⟨0x41#8, .f2 0x23#8⟩) = .ok (.receive 0x23#8) ∧
    decode p dev (.busWrite p.wakeAddr []) = .ok .wakePulse ∧
    decode p dev (.busWrite dev [p.pfxIdle]) = .ok .ctrlIdle ∧
    decode p dev (.busWrite dev [p.pfxSleep]) = .ok .ctrlSleep ∧
    decode p dev (.busRead [0x04#8, 0x11#8, 0x33#8, 0x43#8]) = .ok .wakeResponse ∧
    decode p dev (.busRead [0x04#8, 0x00#8, 0x03#8, 0x40#8]) = .ok (.inFrame [0x00#8])

/-- R70 to R75, R80, R81: no field of an encoding is dropped. Every well-formed instruction decodes from its encoding with
every operand. -/
def Obligations.DecodeInvertsEncode : Prop :=
  ∀ (p : Params) (dev : BusAddr) (i : Instr), p.Legal → i.wf p = true → decode p dev (encode p dev i) = .ok i

/-- R70 to R75, R80, R81: what decodes is well formed and is exactly the encoding of what it decodes to, so each input has
one meaning. -/
def Obligations.EncodeInvertsDecode : Prop :=
  ∀ (p : Params) (dev : BusAddr) (x : Input) (i : Instr), decode p dev x = .ok i → i.wf p = true ∧ encode p dev i = x

/-- R82: every operation number that is not in the table is unassigned, and the model refuses it whatever its fields. -/
def Obligations.UnassignedOperationRefused : Prop :=
  ∀ (s : State) (r : Request) (rest : List Input), s.inputs = .request r :: rest →
    r.op ∉ [0x10#8, 0x11#8, 0x12#8, 0x13#8, 0x20#8, 0x21#8, 0x22#8, 0x30#8, 0x31#8, 0x40#8, 0x41#8] →
    step s = .refused (.undecodable (.unassignedOperation r.op))

/-- R13, R27: when what stands first at the interfaces decodes to an instruction, a step is `exec` of it, with that input
used up. -/
def Obligations.StepRunsDecodedInstruction : Prop :=
  ∀ (s : State) (x : Input) (rest : List Input) (i : Instr), s.inputs = x :: rest →
    decode s.cfg s.devAddr x = .ok i → step s = exec i { s with inputs := rest }

/-- R251: "the block does nothing until the host issues an operation" (that the machine then steps is log entry 6). -/
def Obligations.StepWithoutInputDoesNothing : Prop :=
  ∀ s : State, s.inputs = [] → step s = .next s

/-! ### Reset and the packed view -/

/-- R37: the values after reset that the table gives. (`last_crc`, `rxbuf`, `txbuf` are unspecified there.) -/
def Obligations.ResetValues : Prop :=
  State.reset.crcReg = 0x0000#16 ∧ State.reset.rxTotal = 0#8 ∧ State.reset.rxExpected = 0#8 ∧ State.reset.attempts = 0#5 ∧
    State.reset.exhausted = false ∧ State.reset.overflow = false ∧ State.reset.ps = .sleeping ∧
    State.reset.err = .ok ∧ State.reset.devAddr = Config.devAddr ∧ State.reset.txLen = 0#9 ∧ State.reset.trace = []

/-- R35, R28, R220: each field of STATUS where the table puts it, with the codes of `ps` and `err`. -/
def Obligations.StatusFields : Prop :=
  ∀ s : State,
    s.status.extractLsb' 0 3 =
      (match s.err with
        | .ok => 0#3 | .busError => 1#3 | .noResponse => 2#3 | .countMismatch => 3#3
        | .crcMismatch => 4#3 | .invalidLength => 5#3 | .payloadTooLarge => 6#3 | .deviceRejected => 7#3) ∧
    s.status.getLsbD 3 = s.exhausted ∧ s.status.getLsbD 4 = s.overflow ∧
    s.status.extractLsb' 5 2 =
      (match s.ps with | .sleeping => 0#2 | .idle => 1#2 | .ready => 2#2 | .awaitingResponse => 3#2) ∧
    s.status.getLsbD 7 = false

/-! ### The CRC unit -/

/-- R100: CRC_CLR, its encoding and its whole effect; nothing else changes. -/
def Obligations.CrcClrClears : Prop :=
  (∀ (p : Params) (dev : BusAddr), decode p dev (.request ⟨0x10#8, .f0⟩) = .ok .crcClr) ∧
  ∀ s : State, exec .crcClr s = .next { s with crcReg := 0x0000#16, err := .ok, output := .none }

/-- R101: CRC_SHIFT, its encoding and its whole effect: the top bit before the shift is compared, the XOR is applied after
it; nothing else changes. -/
def Obligations.CrcShiftOneBit : Prop :=
  (∀ (p : Params) (dev : BusAddr) (d : Bool), decode p dev (.request ⟨0x11#8, .f1 d⟩) = .ok (.crcShift d)) ∧
  ∀ (s : State) (d : Bool), exec (.crcShift d) s = .next { s with
    crcReg := if d = s.crcReg.getLsbD 15 then s.crcReg <<< 1 else (s.crcReg <<< 1) ^^^ 0x8005#16
    err := .ok
    output := .none }

/-- R104: the same step bit by bit; the three taps are bits 15, 2 and 0. -/
def Obligations.CrcShiftTaps : Prop :=
  ∀ (s : State) (d : Bool), ∃ t : State, exec (.crcShift d) s = .next t ∧
    t.crcReg.getLsbD 0 = Bool.xor d (s.crcReg.getLsbD 15) ∧
    t.crcReg.getLsbD 1 = s.crcReg.getLsbD 0 ∧
    t.crcReg.getLsbD 2 = Bool.xor (s.crcReg.getLsbD 1) (Bool.xor d (s.crcReg.getLsbD 15)) ∧
    (∀ i, 3 ≤ i → i ≤ 14 → t.crcReg.getLsbD i = s.crcReg.getLsbD (i - 1)) ∧
    t.crcReg.getLsbD 15 = Bool.xor (s.crcReg.getLsbD 14) (Bool.xor d (s.crcReg.getLsbD 15))

/-- R102: CRC_BYTE, its encoding, and that it is the eight shifts of its bits, bit 0 first, from whatever the register
holds. -/
def Obligations.CrcByteIsEightShifts : Prop :=
  (∀ (p : Params) (dev : BusAddr) (b : Byte), decode p dev (.request ⟨0x12#8, .f2 b⟩) = .ok (.crcByte b)) ∧
  ∀ (s : State) (b : Byte), ∃ t : State, exec (.crcByte b) s = .next t ∧
    execAll [.crcShift (b.getLsbD 0), .crcShift (b.getLsbD 1), .crcShift (b.getLsbD 2), .crcShift (b.getLsbD 3),
      .crcShift (b.getLsbD 4), .crcShift (b.getLsbD 5), .crcShift (b.getLsbD 6), .crcShift (b.getLsbD 7)] s = .next t ∧
    t = { s with crcReg := t.crcReg, err := .ok, output := .none }

/-- R103: CRC16, its encoding, and that it is CRC_CLR and then CRC_BYTE of every byte in order, with the final register's
low and high byte as its output. -/
def Obligations.Crc16IsClearThenBytes : Prop :=
  (∀ (p : Params) (dev : BusAddr) (len : Half) (data : List Byte), data.length = len.toNat →
    decode p dev (.request ⟨0x13#8, .f3 len data⟩) = .ok (.crc16 data)) ∧
  ∀ (s : State) (data : List Byte), ∃ t : State, execAll (.crcClr :: data.map .crcByte) s = .next t ∧
    exec (.crc16 data) s = .next { t with
      output := .crc ⟨t.crcReg.extractLsb' 0 8, t.crcReg.extractLsb' 8 8⟩ } ∧
    t = { s with crcReg := t.crcReg, err := .ok, output := .none }

/-- R106: the result of CRC16 depends on `data` alone, while the steps depend on the register. -/
def Obligations.Crc16DependsOnDataAlone : Prop :=
  (∀ (s s' t t' : State) (data : List Byte), exec (.crc16 data) s = .next t → exec (.crc16 data) s' = .next t' →
    t.output = t'.output ∧ t.crcReg = t'.crcReg) ∧
  (∃ (s s' t t' : State) (d : Bool), exec (.crcShift d) s = .next t ∧ exec (.crcShift d) s' = .next t' ∧
    t.crcReg ≠ t'.crcReg) ∧
  (∃ (s s' t t' : State) (b : Byte), exec (.crcByte b) s = .next t ∧ exec (.crcByte b) s' = .next t' ∧
    t.crcReg ≠ t'.crcReg)

/-- R107 (a): zero bytes at the start of the data are invisible to CRC16. -/
def Obligations.LeadingZerosInvisible : Prop :=
  ∀ (s : State) (n : Nat) (data : List Byte),
    exec (.crc16 (List.replicate n 0x00#8 ++ data)) s = exec (.crc16 data) s

/-- R107 (b): `crc16` is linear: the bytewise XOR of two sequences of one length has the bytewise XOR of their CRCs. -/
def Obligations.Crc16Linear : Prop :=
  ∀ (s t ta tb : State) (a b : List Byte), a.length = b.length →
    exec (.crc16 (List.zipWith (· ^^^ ·) a b)) s = .next t → exec (.crc16 a) s = .next ta → exec (.crc16 b) s = .next tb →
    t.crcReg = ta.crcReg ^^^ tb.crcReg

/-- R109: CRC16 is the textbook most-significant-bit-first CRC run over the data with every byte's bits reversed. -/
def Obligations.Crc16IsReflectedMsbFirst : Prop :=
  ∀ (s : State) (data : List Byte), ∃ t : State, exec (.crc16 data) s = .next t ∧
    t.crcReg = msbFirstCrc (data.map reverseBits)

/-! ### The codec -/

/-- R140, R70, R226 (and R71, R76, R141, R142 in it): ENCODE, its encoding and its two outcomes. With too much data it is
`PayloadTooLarge`, `tx_len` becomes 0 and nothing else changes; else every byte of the frame, the CRC over `count` through
the end of `data` read back from `txbuf`, `tx_len`, `last_crc`, and that nothing else changes. -/
def Obligations.EncodeBuildsFrame : Prop :=
  (∀ (p : Params) (dev : BusAddr) (opcode param1 : Byte) (param2 len : Half) (data : List Byte), data.length = len.toNat →
    decode p dev (.request ⟨0x30#8, .f4 opcode param1 param2 len data⟩) = .ok (.encode opcode param1 param2 data)) ∧
  (∀ (s : State) (opcode param1 : Byte) (param2 : Half) (data : List Byte), s.cfg.maxTransfer.toNat < 7 + data.length →
    exec (.encode opcode param1 param2 data) s = .next { s with txLen := 0#9, err := .payloadTooLarge, output := .none }) ∧
  ∀ (s : State) (opcode param1 : Byte) (param2 : Half) (data : List Byte), 7 + data.length ≤ s.cfg.maxTransfer.toNat →
    ∃ t : State, exec (.encode opcode param1 param2 data) s = .next t ∧
      t.readTx 0 = s.cfg.pfxCommand ∧ t.readTx 1 = BitVec.ofNat 8 (7 + data.length) ∧ t.readTx 2 = opcode ∧
      t.readTx 3 = param1 ∧ t.readTx 4 = param2.extractLsb' 0 8 ∧ t.readTx 5 = param2.extractLsb' 8 8 ∧
      (∀ k, (hk : k < data.length) → t.readTx (6 + k) = data[k]) ∧
      t.lastCrc = crc16Of (t.txSlice 1 (5 + data.length)) ∧
      t.readTx (6 + data.length) = t.lastCrc.lo ∧ t.readTx (7 + data.length) = t.lastCrc.hi ∧
      t.txLen.toNat = 8 + data.length ∧ t.crcReg = t.lastCrc.hi ++ t.lastCrc.lo ∧ t.err = .ok ∧ t.output = .none ∧
      (∀ k, 8 + data.length ≤ k → t.readTx k = s.readTx k) ∧ (∀ k, t.readRx k = s.readRx k) ∧
      t = { s with txbuf := t.txbuf, txLen := t.txLen, crcReg := t.crcReg, lastCrc := t.lastCrc, err := .ok,
                   output := .none }

/-- R144, R145, R146, R148: DECODE, its encoding and its three outcomes: the count test first, then the CRC test over the
first L - 2 bytes, then the payload between `count` and the CRC. Nothing else changes. -/
def Obligations.DecodeChecksCountThenCrc : Prop :=
  (∀ (p : Params) (dev : BusAddr), decode p dev (.request ⟨0x31#8, .f0⟩) = .ok .decode) ∧
  ∀ (s : State) (L : Nat) (c : CrcPair), L = s.rxTotal.toNat → c = crc16Of (s.rxSlice 0 (L - 2)) →
    ((L < 3 ∨ 128 < L ∨ (s.readRx 0).toNat ≠ L) →
      exec .decode s = .next { s with err := .countMismatch, output := .none }) ∧
    (3 ≤ L → L ≤ 128 → (s.readRx 0).toNat = L → (s.readRx (L - 2) ≠ c.lo ∨ s.readRx (L - 1) ≠ c.hi) →
      exec .decode s = .next { s with crcReg := c.hi ++ c.lo, lastCrc := c, err := .crcMismatch, output := .none }) ∧
    (3 ≤ L → L ≤ 128 → (s.readRx 0).toNat = L → s.readRx (L - 2) = c.lo → s.readRx (L - 1) = c.hi →
      exec .decode s = .next { s with
        crcReg := c.hi ++ c.lo
        lastCrc := c
        err := .ok
        output := .payload (s.rxSlice 1 (L - 3)) })

/-- R144: DECODE "may be repeated and gives the same answer". -/
def Obligations.DecodeRepeats : Prop :=
  ∀ s t : State, exec .decode s = .next t → exec .decode t = .next t

/-- R149: an encoded frame of at most 121 data bytes, placed without its first byte in `rxbuf` with its length as
`rx_total`, decodes to the four header bytes and the original data. -/
def Obligations.CodecRoundTrip : Prop :=
  ∀ (s e r : State) (opcode param1 : Byte) (param2 : Half) (data : List Byte), data.length ≤ 121 →
    7 + data.length ≤ s.cfg.maxTransfer.toNat → exec (.encode opcode param1 param2 data) s = .next e →
    r.rxTotal.toNat = 7 + data.length → r.rxSlice 0 (7 + data.length) = e.txSlice 1 (7 + data.length) →
    ∃ t : State, exec .decode r = .next t ∧ t.err = .ok ∧
      t.output = .payload ([opcode, param1, param2.extractLsb' 0 8, param2.extractLsb' 8 8] ++ data)

/-- R150: the count byte of an encoded frame is the number of the frame's bytes behind its first, and the count byte of a
frame that DECODE accepts is the number of bytes received. -/
def Obligations.CountIsFrameLength : Prop :=
  (∀ (s t : State) (opcode param1 : Byte) (param2 : Half) (data : List Byte),
    exec (.encode opcode param1 param2 data) s = .next t → t.err = .ok → (t.readTx 1).toNat = t.txLen.toNat - 1) ∧
  ∀ s t : State, exec .decode s = .next t → t.err = .ok → (s.readRx 0).toNat = s.rxTotal.toNat

/-! ### The transfer engine -/

/-- R160, R161: TRANSMIT, its encoding; refused with no frame; else one write of all `tx_len` bytes, and by its answer
`AwaitingResponse` or `BusError`. Nothing else changes. -/
def Obligations.TransmitSendsFrame : Prop :=
  (∀ (p : Params) (dev : BusAddr), decode p dev (.request ⟨0x40#8, .f0⟩) = .ok .transmit) ∧
  (∀ s : State, s.txLen = 0#9 → exec .transmit s = .refused .noValidFrame) ∧
  (∀ s : State, s.txLen ≠ 0#9 → s.nextAck = .ok → exec .transmit s = .next { s.dropAck with
    ps := .awaitingResponse
    err := .ok
    output := .none
    trace := s.trace ++ [.wr s.devAddr (s.txSlice 0 s.txLen.toNat) .ok] }) ∧
  (∀ s : State, s.txLen ≠ 0#9 → s.nextAck = .err → exec .transmit s = .next { s.dropAck with
    err := .busError
    output := .none
    trace := s.trace ++ [.wr s.devAddr (s.txSlice 0 s.txLen.toNat) .err] })

/-- R68: TRANSMIT sends exactly the bytes the ENCODE before it wrote: the bus write is the wire format OUT_FRAME of the
same operands. -/
def Obligations.TransmitSendsWhatEncodeWrote : Prop :=
  ∀ (s : State) (opcode param1 : Byte) (param2 : Half) (data : List Byte), 7 + data.length ≤ s.cfg.maxTransfer.toNat →
    ∃ t u : State, execAll [.encode opcode param1 param2 data, .transmit] s = .next t ∧
      exec (.outFrame opcode param1 param2 data) s = .next u ∧ t.trace = u.trace ∧
      u.trace = s.trace ++ [.wr s.devAddr (outFrameBytes s.cfg.pfxCommand opcode param1 param2 data) s.nextAck]

/-- R162 (and R163 to R169 in it): RECEIVE for every environment, said by the reads it made and the bytes they delivered:
each read asks for the smaller of 32 and what is outstanding, computed anew after every answer, and is made only while
something is outstanding; at most 20 of them, each counted; a failed one is the last; it stops short only when the attempts
are used up. The buffer holds the first 128 delivered bytes and the sentinel above them; the total saturates at 255;
`overflow`, `exhausted`, the result and `ps`; its output; and all it leaves alone. -/
def Obligations.ReceiveCollectsDelivered : Prop :=
  (∀ (p : Params) (dev : BusAddr) (n : Byte), decode p dev (.request ⟨0x41#8, .f2 n⟩) = .ok (.receive n)) ∧
  ∀ (s : State) (n : Byte), ∃ (t : State) (es : List Event), exec (.receive n) s = .next t ∧
    t.trace = s.trace ++ es ∧ es.length ≤ 20 ∧ t.attempts.toNat = es.length ∧
    (∀ (pre post : List Event) (e : Event), es = pre ++ e :: post →
      ∃ ans, e = .rd s.devAddr (min 32 (min n.toNat 128 - min (delivered pre).length 255)) ans ∧
        min (delivered pre).length 255 < min n.toNat 128 ∧ (ans = .err → post = [])) ∧
    t.rxExpected.toNat = min n.toNat 128 ∧
    t.rxTotal.toNat = min (delivered es).length 255 ∧
    (∀ k, k < 128 → t.readRx k = ((delivered es)[k]?).getD 0xFF#8) ∧
    (t.overflow = true ↔ 128 < (delivered es).length) ∧
    (t.err = .ok ∨ t.err = .busError) ∧
    (t.err = .busError ↔ ∃ e ∈ es, e.isFailedRead = true) ∧
    (t.exhausted = true ↔ t.err = .ok ∧ t.rxTotal.toNat < t.rxExpected.toNat) ∧
    (t.exhausted = true → t.attempts.toNat = 20) ∧
    t.ps = (if t.err = .ok ∧ t.exhausted = false then .ready else s.ps) ∧
    (t.err = .ok → t.output =
      .received (t.rxSlice 0 (min t.rxTotal.toNat 128)) t.rxTotal t.exhausted t.overflow) ∧
    (t.err = .busError → t.output = .none) ∧
    t.crcReg = s.crcReg ∧ t.lastCrc = s.lastCrc ∧ t.devAddr = s.devAddr ∧ t.txLen = s.txLen ∧ t.cfg = s.cfg ∧
    (∀ k, t.readTx k = s.readTx k) ∧ (∀ k, 128 ≤ k → t.rxbuf.find k = none) ∧
    t.inputs = s.inputs ∧ t.writeAnswers = s.writeAnswers

/-- R166 (the derived part), R62: under the transport's contract nothing is ever discarded and the total never passes the
expected length. -/
def Obligations.ContractMeansNoOverflow : Prop :=
  ∀ (s t : State) (n : Byte), exec (.receive n) s = .next t → KeepsContractSince s t →
    t.overflow = false ∧ t.rxTotal.toNat ≤ t.rxExpected.toNat

/-- R171, R167: RECEIVE of a frame that stands on the bus (log entry 8) and is as long as the clamped request: the reads of the table,
their number, and the frame in the buffer. -/
def Obligations.ReceiveWholeFrame : Prop :=
  ∀ (s : State) (n : Byte) (c : List Byte) (rest : List Pending), s.readAnswers = .frame c :: rest →
    c.length = min n.toNat 128 → c ≠ [] →
    ∃ t : State, exec (.receive n) s = .next t ∧ t.trace = s.trace ++ readSchedule s.devAddr c ∧
      t.attempts.toNat = (c.length + 31) / 32 ∧ t.rxTotal.toNat = c.length ∧ t.rxSlice 0 c.length = c ∧
      t.exhausted = false ∧ t.overflow = false ∧ t.ps = .ready ∧ t.err = .ok ∧ t.readAnswers = rest

/-- R163: `expected_len` = 0 is legal: the buffer is filled with the sentinel and no read is made. -/
def Obligations.ReceiveNothing : Prop :=
  ∀ s : State, exec (.receive 0#8) s = .next { s with
    rxExpected := 0#8
    rxbuf := (List.range 128).map fun i => (i, 0xFF#8)
    rxTotal := 0#8
    attempts := 0#5
    exhausted := false
    overflow := false
    ps := .ready
    err := .ok
    output := .received [] 0#8 false false }

/-- R168, R171: twenty empty answers use up the attempts; RECEIVE still ends with `Ok`, and `ps` stays. -/
def Obligations.ReceiveExhausts : Prop :=
  ∀ (s : State) (n : Byte) (rest : List Pending), n ≠ 0#8 →
    s.readAnswers = List.replicate 20 (.answer (.bytes [])) ++ rest →
    ∃ t : State, exec (.receive n) s = .next t ∧ t.attempts.toNat = 20 ∧ t.rxTotal = 0#8 ∧ t.exhausted = true ∧
      t.err = .ok ∧ t.ps = s.ps ∧
      t.trace = s.trace ++ List.replicate 20 (.rd s.devAddr (min 32 (min n.toNat 128)) (.bytes []))

/-! ### The power-state controller -/

/-- R120, R121, R129: WAKE, its encoding, and that it is the pulse with its answer ignored, the wait of 1500, the steps of
RECEIVE 4 without its write of `ps`, the tests for exhaustion and the signal byte, and the steps of DECODE, in this order;
`ps` becomes Ready only when all pass. -/
def Obligations.WakeRunsPulseReceiveChecks : Prop :=
  (∀ (p : Params) (dev : BusAddr), decode p dev (.request ⟨0x20#8, .f0⟩) = .ok .wake) ∧
  ∀ s : State, ∃ t1 t2 : State,
    exec (.receive 4#8) { s.dropAck with
      trace := s.trace ++ [.wr s.cfg.wakeAddr [] s.nextAck, .dly 1500] } = .next t1 ∧
    exec .decode t1 = .next t2 ∧
    exec .wake s = .next (
      if t1.err = .busError then { t1 with output := .none }
      else if t1.exhausted = true then { t1 with ps := s.ps, err := .noResponse, output := .none }
      else if t1.readRx 1 ≠ 0x11#8 then { t1 with ps := s.ps, err := .noResponse, output := .none }
      else if t2.err = .ok then { t2 with ps := .ready, output := .none }
      else { t2 with ps := s.ps, output := .none })

/-- R122: WAKE by the four bytes that stand on the bus (log entries 8 and 24): signal byte, then count, then
CRC. -/
def Obligations.WakeOutcomeByBytes : Prop :=
  ∀ (s : State) (c0 c1 c2 c3 : Byte) (rest : List Pending), s.readAnswers = .frame [c0, c1, c2, c3] :: rest →
    ∃ t : State, exec .wake s = .next t ∧
      t.err = (if c1 ≠ 0x11#8 then .noResponse else if c0 ≠ 0x04#8 then .countMismatch
        else if c2 ≠ 0x33#8 ∨ c3 ≠ 0x43#8 then .crcMismatch else .ok) ∧
      t.ps = (if t.err = .ok then .ready else s.ps) ∧
      t.lastCrc = (if c1 = 0x11#8 ∧ c0 = 0x04#8 then ⟨0x33#8, 0x43#8⟩ else s.lastCrc) ∧
      t.exhausted = false ∧ t.rxTotal = 4#8 ∧ t.attempts = 1#5 ∧ t.output = .none ∧
      t.trace = s.trace ++
        [.wr s.cfg.wakeAddr [] s.nextAck, .dly 1500, .rd s.devAddr 4 (.bytes [c0, c1, c2, c3])]

/-- R123: IDLE, its encoding and its two outcomes; legal from every `ps`; nothing else changes. -/
def Obligations.IdleSendsIdleByte : Prop :=
  (∀ (p : Params) (dev : BusAddr), decode p dev (.request ⟨0x21#8, .f0⟩) = .ok .idle) ∧
  (∀ s : State, s.nextAck = .ok → exec .idle s = .next { s.dropAck with
    ps := .idle
    err := .ok
    output := .none
    trace := s.trace ++ [.wr s.devAddr [s.cfg.pfxIdle] .ok] }) ∧
  (∀ s : State, s.nextAck = .err → exec .idle s = .next { s.dropAck with
    err := .busError
    output := .none
    trace := s.trace ++ [.wr s.devAddr [s.cfg.pfxIdle] .err] })

/-- R124: SLEEP, its encoding and its three outcomes: a failed idle write stops it before the sleep byte, a failed sleep
write leaves `ps` at Idle. -/
def Obligations.SleepSendsIdleThenSleep : Prop :=
  (∀ (p : Params) (dev : BusAddr), decode p dev (.request ⟨0x22#8, .f0⟩) = .ok .sleep) ∧
  (∀ s : State, s.nextAck = .err → exec .sleep s = .next { s.dropAck with
    err := .busError
    output := .none
    trace := s.trace ++ [.wr s.devAddr [s.cfg.pfxIdle] .err] }) ∧
  (∀ s : State, s.nextAck = .ok → s.dropAck.nextAck = .ok → exec .sleep s = .next { s.dropAck.dropAck with
    ps := .sleeping
    err := .ok
    output := .none
    trace := s.trace ++ [.wr s.devAddr [s.cfg.pfxIdle] .ok, .wr s.devAddr [s.cfg.pfxSleep] .ok] }) ∧
  (∀ s : State, s.nextAck = .ok → s.dropAck.nextAck = .err → exec .sleep s = .next { s.dropAck.dropAck with
    ps := .idle
    err := .busError
    output := .none
    trace := s.trace ++ [.wr s.devAddr [s.cfg.pfxIdle] .ok, .wr s.devAddr [s.cfg.pfxSleep] .err] })

/-! ### The wire formats -/

/-- R70, R74, R75 (that a transfer alone is a step and writes no register is the model's reading: log entry 3): each
outbound wire format is one bus write of exactly its bytes to its address, and nothing else changes. -/
def Obligations.OutboundFormatsAreOneWrite : Prop :=
  ∀ s : State,
    (∀ (opcode param1 : Byte) (param2 : Half) (data : List Byte), exec (.outFrame opcode param1 param2 data) s =
      .next { s.dropAck with trace := s.trace ++ [.wr s.devAddr
        (s.cfg.pfxCommand :: (outBody opcode param1 param2 data ++
          [(crc16Of (outBody opcode param1 param2 data)).lo, (crc16Of (outBody opcode param1 param2 data)).hi])) s.nextAck] }) ∧
    exec .ctrlIdle s = .next { s.dropAck with trace := s.trace ++ [.wr s.devAddr [s.cfg.pfxIdle] s.nextAck] } ∧
    exec .ctrlSleep s = .next { s.dropAck with trace := s.trace ++ [.wr s.devAddr [s.cfg.pfxSleep] s.nextAck] } ∧
    exec .wakePulse s = .next { s.dropAck with trace := s.trace ++ [.wr s.cfg.wakeAddr [] s.nextAck] }

/-- R72, R75 (log entry 3): an inbound wire format puts exactly its bytes on the bus for the coming reads, and nothing else
changes. -/
def Obligations.InboundFormatsStandOnBus : Prop :=
  ∀ s : State,
    (∀ payload : List Byte, exec (.inFrame payload) s = .next { s with readAnswers := s.readAnswers ++ [.frame
      (BitVec.ofNat 8 (payload.length + 3) :: payload ++
        [(crc16Of (BitVec.ofNat 8 (payload.length + 3) :: payload)).lo,
          (crc16Of (BitVec.ofNat 8 (payload.length + 3) :: payload)).hi])] }) ∧
    exec .wakeResponse s = .next { s with
      readAnswers := s.readAnswers ++ [.frame [0x04#8, 0x11#8, 0x33#8, 0x43#8]] }

/-- R72, R84, R144, R147 (log entries 3 and 8): a response frame that stands on the bus is received whole by RECEIVE of its length and DECODE
returns its payload. -/
def Obligations.InboundFrameIsDecoded : Prop :=
  ∀ (s : State) (payload : List Byte), payload.length + 3 ≤ 128 → s.readAnswers = [] →
    ∃ t : State, execAll [.inFrame payload, .receive (BitVec.ofNat 8 (payload.length + 3)), .decode] s = .next t ∧
      t.err = .ok ∧ t.output = .payload payload ∧ t.ps = .ready ∧ t.readAnswers = []

/-! ### The whole machine -/

/-- R233: the only operation that stops is TRANSMIT with no valid frame; every other one, and every bus transfer, gives a
next state from every state. -/
def Obligations.OnlyTransmitWithoutFrameStops : Prop :=
  ∀ (i : Instr) (s : State),
    (i = .transmit ∧ s.txLen = 0#9 ∧ exec i s = .refused .noValidFrame) ∨
    ((i = .transmit → s.txLen ≠ 0#9) ∧ ∃ t : State, exec i s = .next t)

/-- R36, R65 (c): the frame of every instruction: a register with no `W` entry for it is unchanged, and so is every byte of
a buffer it does not write; no instruction writes `dev_addr` (R31) or the parameters. -/
def Obligations.AccessMatrix : Prop :=
  ∀ (i : Instr) (s t : State), exec i s = .next t →
    (writesRegister i .crcReg = false → t.crcReg = s.crcReg) ∧
    (writesRegister i .lastCrc = false → t.lastCrc = s.lastCrc) ∧
    (writesRegister i .rxbuf = false → ∀ k, t.readRx k = s.readRx k) ∧
    (writesRegister i .rxTotal = false → t.rxTotal = s.rxTotal) ∧
    (writesRegister i .rxExpected = false → t.rxExpected = s.rxExpected) ∧
    (writesRegister i .attempts = false → t.attempts = s.attempts) ∧
    (writesRegister i .exhausted = false → t.exhausted = s.exhausted) ∧
    (writesRegister i .overflow = false → t.overflow = s.overflow) ∧
    (writesRegister i .ps = false → t.ps = s.ps) ∧
    (writesRegister i .err = false → t.err = s.err) ∧
    (writesRegister i .txbuf = false → ∀ k, t.readTx k = s.readTx k) ∧
    (writesRegister i .txLen = false → t.txLen = s.txLen) ∧
    t.devAddr = s.devAddr ∧ t.cfg = s.cfg ∧ t.inputs = s.inputs

/-- R140, R144, R170 (what makes no transport call): the instructions without bus activity leave the trace alone; the
others only add to it. -/
def Obligations.TraceOnlyGrows : Prop :=
  ∀ (i : Instr) (s t : State), exec i s = .next t →
    (∃ es, t.trace = s.trace ++ es) ∧ (usesBus i = false → t.trace = s.trace)

/-- R126, the columns "`ps` after": how every instruction moves `ps`, from whatever `ps` it is issued (log entry 13). -/
def Obligations.PowerStateTransitions : Prop :=
  ∀ (i : Instr) (s t : State), exec i s = .next t →
    t.ps = (match i with
      | .wake => if t.err = .ok then .ready else s.ps
      | .transmit => if t.err = .ok then .awaitingResponse else s.ps
      | .receive _ => if t.err = .ok ∧ t.exhausted = false then .ready else s.ps
      | .idle => if t.err = .ok then .idle else s.ps
      | .sleep => if t.err = .ok then .sleeping else if s.nextAck = .ok then .idle else s.ps
      | _ => s.ps)

/-- R125, R126: under the host's duty (the column "legal `ps` before") there is no arrow from Sleeping or Idle to
AwaitingResponse: a command is sent only to a device that has been woken. -/
def Obligations.CommandNeedsWake : Prop :=
  ∀ (i : Instr) (s t : State), exec i s = .next t → legalBefore i s.ps = true →
    (s.ps = .sleeping ∨ s.ps = .idle) → t.ps ≠ .awaitingResponse

/-- R220, the column "raised by (block)": the result codes each operation can end with. -/
def Obligations.ResultCodesByOperation : Prop :=
  ∀ (i : Instr) (s t : State), exec i s = .next t → isOperation i = true → mayEndWith i t.err = true

/-- R142, R166, R29, R26, R25, R164, R32: the invariant of the registers holds after reset. -/
def Obligations.ResetMeetsInvariant : Prop := State.reset.Inv

/-- The same invariant, with the canonical form of both buffers (R23, R32), is kept by every step from every state that
meets it. -/
def Obligations.StepKeepsInvariant : Prop :=
  ∀ s t : State, s.Inv → step s = .next t → t.Inv

/-- R74, R83 (a), R62, R64, R235: from every state that meets the invariant, every step adds only transport calls of the
kinds the spec lists: the wake transmission, the two control bytes, command frames of R70, reads of 1 to 32 bytes from
`dev_addr`, the wait of 1500. -/
def Obligations.StepSendsOnlyListedFormats : Prop :=
  ∀ s t : State, s.Inv → s.TraceFromBlock → step s = .next t → t.TraceFromBlock

/-- R22: `last_crc` is written by ENCODE, DECODE and WAKE alone, and what they write is the CRC that the unit's register
was left at. -/
def Obligations.LastCrcFollowsCodec : Prop :=
  ∀ (i : Instr) (s t : State), exec i s = .next t → t.lastCrc ≠ s.lastCrc →
    ((∃ a b c d, i = .encode a b c d) ∨ i = .decode ∨ i = .wake) ∧
    t.lastCrc = ⟨t.crcReg.extractLsb' 0 8, t.crcReg.extractLsb' 8 8⟩

/-! ### The command sequencer (HOST) -/

/-- R180, R183: each line of XACT is one operation of the block or the host's delay, in the order encode, wake, transmit,
delay, receive, idle, decode: the block of a transaction that reaches DECODE is what these operations give one after
another, each having ended with `Ok` before the next. -/
def Obligations.XactRunsOperations : Prop :=
  ∀ (c : Command) (tExec : Nat) (len : Byte) (ip : Interp) (s : State) (v : List Byte),
    (xact c tExec len ip s).reply = .ok v →
    ∃ s1 s2 s3 s4 s5 s6 : State,
      exec (.encode c.opcode c.param1 c.param2 c.data) s = .next s1 ∧ s1.err = .ok ∧
      exec .wake s1 = .next s2 ∧ s2.err = .ok ∧
      exec .transmit s2 = .next s3 ∧ s3.err = .ok ∧
      exec (.receive len) { s3 with trace := s3.trace ++ [.dly tExec] } = .next s4 ∧ s4.err = .ok ∧
      exec .idle s4 = .next s5 ∧ s5.err = .ok ∧ s5.exhausted = false ∧
      exec .decode s5 = .next s6 ∧ s6.err = .ok ∧
      (xact c tExec len ip s).block = s6 ∧
      ∃ payload, s6.output = .payload payload ∧ interpret ip payload = .ok v

/-- R180, its trace of a transaction in which everything succeeds: the wake response and a response frame of the expected
length stand on the bus (log entries 8 and 24) and the two writes to the device are answered `ok`. -/
def Obligations.XactSuccessTrace : Prop :=
  ∀ (c : Command) (tExec : Nat) (ip : Interp) (s : State) (a : Ack) (ws : List Ack) (rs : List Pending)
    (payload : List Byte), 7 + c.data.length ≤ s.cfg.maxTransfer.toNat → payload.length + 3 ≤ 128 →
    s.writeAnswers = a :: .ok :: .ok :: ws →
    s.readAnswers = .frame wakeResponseBytes :: .frame (inFrameBytes payload) :: rs →
    ∃ x : Done, x = xact c tExec (responseLen payload.length) ip s ∧
      x.reply = interpret ip payload ∧ x.sent = true ∧ x.block.ps = .idle ∧ x.block.err = .ok ∧
      x.block.trace = s.trace ++
        ([.wr s.cfg.wakeAddr [] a, .dly 1500, .rd s.devAddr 4 (.bytes [0x04#8, 0x11#8, 0x33#8, 0x43#8]),
          .wr s.devAddr (outFrameBytes s.cfg.pfxCommand c.opcode c.param1 c.param2 c.data) .ok, .dly tExec] ++
        readSchedule s.devAddr (inFrameBytes payload) ++ [.wr s.devAddr [s.cfg.pfxIdle] .ok])

/-- R143, R226: a transaction with too much data returns `PayloadTooLarge` with no bus activity. -/
def Obligations.XactTooLargeTouchesNoBus : Prop :=
  ∀ (c : Command) (tExec : Nat) (len : Byte) (ip : Interp) (s : State), s.cfg.maxTransfer.toNat < 7 + c.data.length →
    (xact c tExec len ip s).reply = .error .payloadTooLarge ∧ (xact c tExec len ip s).sent = false ∧
      (xact c tExec len ip s).block.trace = s.trace ∧ (xact c tExec len ip s).block.ps = s.ps

/-- R183: whenever a transaction ends otherwise than with `BusError` or `PayloadTooLarge`, its last transport call was the
idle byte, and if that was taken `ps` is Idle: the device is never left mid-command. -/
def Obligations.XactEndsIdle : Prop :=
  ∀ (c : Command) (tExec : Nat) (len : Byte) (ip : Interp) (s : State),
    (xact c tExec len ip s).reply ≠ .error .busError → (xact c tExec len ip s).reply ≠ .error .payloadTooLarge →
    ∃ r : Ack, (xact c tExec len ip s).block.trace.getLast? = some (.wr s.devAddr [s.cfg.pfxIdle] r) ∧
      (r = .ok → (xact c tExec len ip s).block.ps = .idle)

/-- R183, R221: a transaction that returns `BusError` stopped at the call that failed: that call is the last event of the
trace, and nothing was sent after it. -/
def Obligations.XactBusErrorSendsNoMore : Prop :=
  ∀ (c : Command) (tExec : Nat) (len : Byte) (ip : Interp) (s : State),
    (xact c tExec len ip s).reply = .error .busError →
    ∃ e : Event, (xact c tExec len ip s).block.trace.getLast? = some e ∧
      ((∃ a content, e = .wr a content .err) ∨ (∃ a m, e = .rd a m .err))

/-- R190, R191, R225: `readZone` and `writeZone` with a length other than 4 or 32 return `InvalidLength` and issue no
operation: nothing of the block or the host changes. -/
def Obligations.ZoneLengthCheckedFirst : Prop :=
  ∀ (k : Catalogue) (zone : Zone) (address length : Nat) (bytes : List Byte) (h : HostState),
    (length ≠ 4 → length ≠ 32 → readZone k zone address length h = (.error .invalidLength, h)) ∧
    (bytes.length ≠ 4 → bytes.length ≠ 32 → writeZone k zone address bytes h = (.error .invalidLength, h))

/-- R77, R190: bit 7 of the zone id says whether the transfer has 32 bytes, and bits 6:0 name the zone. -/
def Obligations.ZoneIdBits : Prop :=
  ∀ (k : Catalogue) (zone : Zone) (length : Nat),
    ((zoneId k zone length).getLsbD 7 = true ↔ length = 32) ∧ (zoneId k zone length).extractLsb' 0 7 = k.zoneBits zone

/-- R196: the host's bit is set by a successful `loadTempKey` alone; `sign` without it is refused and nothing changes; a
`sign` or a verify whose frame was transmitted leaves the bit clear, and so does `sleep`; `idle` keeps it. That a failed
`loadTempKey` leaves the bit as it was, and that a frame whose write answered `err` counts as not transmitted, is the
model's choice (log entry 20). -/
def Obligations.TempKeyIsSingleUse : Prop :=
  ∀ (k : Catalogue) (slot : Slot) (h : HostState),
    (∀ data : Vector Byte 32, (loadTempKey k data h).2.tempkeyLoaded = true ↔
      h.tempkeyLoaded = true ∨ (loadTempKey k data h).1 = .ok []) ∧
    (h.tempkeyLoaded = false → sign k slot h = (.refused, h)) ∧
    ((sign k slot h).2.tempkeyLoaded = true → h.tempkeyLoaded = true ∧
      (h.run k ⟨k.opSign, (k.signFields k.signMode slot).1, (k.signFields k.signMode slot).2, []⟩ (responseLen 64)
        (.data 64)).sent = false) ∧
    (∀ (f : Byte × Half) (data : List Byte),
      (h.run k ⟨k.opVerify, f.1, f.2, data⟩ (responseLen 1) .status).sent = true →
      (verifyWith k f data h).2.tempkeyLoaded = false) ∧
    (hostSleep h).tempkeyLoaded = false ∧ (hostIdle h).tempkeyLoaded = h.tempkeyLoaded

/-- R199: the hash input is cut into its full 64-byte blocks, in order, and a remainder of 0 to 63 bytes, with nothing
lost. -/
def Obligations.ShaSplitsInput : Prop :=
  ∀ data : List Byte,
    (shaBlocks data).flatten ++ shaRemainder data = data ∧ (shaBlocks data).length = data.length / 64 ∧
      (∀ b ∈ shaBlocks data, b.length = 64) ∧ (shaRemainder data).length = data.length % 64

/-- R45, R255: a successful explicit read gives and caches 128 bytes that are not stale, and under a legal layout they decode
into a serial number of 10 bytes, a revision number of 4 bytes and two tables of 16 words of 2 bytes (that a table's words
follow one another is log entry 21); a read that fails leaves the cache as it was (log entry 21). -/
def Obligations.SnapshotReadAndDecoded : Prop :=
  ∀ (k : Catalogue) (l : SnapshotLayout) (h : HostState), l.Legal →
    (∀ c : List Byte, (readSnapshot k h).1 = .ok c →
      c.length = 128 ∧ (readSnapshot k h).2.snapshot = some c ∧ (readSnapshot k h).2.stale = false ∧
      (decodeSnapshot l c).serial.length = 10 ∧ (decodeSnapshot l c).revision.length = 4 ∧
      (decodeSnapshot l c).slotWords.length = 16 ∧ (decodeSnapshot l c).keyWords.length = 16 ∧
      (∀ w ∈ (decodeSnapshot l c).slotWords ++ (decodeSnapshot l c).keyWords, w.length = 2)) ∧
    ((∀ c : List Byte, (readSnapshot k h).1 ≠ .ok c) →
      (readSnapshot k h).2.snapshot = h.snapshot ∧ (readSnapshot k h).2.stale = h.stale)

/-! ### The device as environment (the set of device states a trace allows is the model's: log entry 17) -/

/-- R40, R41 (log entry 17): after an IDLE that ended with `Ok`, the duties having been kept and no wake wait cut short, each way the device may be now
comes from one it may have been in before: an awake device is idle and has kept its transient state, an idle or sleeping one
is as it was (only a wake brings it out: R128). -/
def Obligations.IdleMakesDeviceIdle : Prop :=
  ∀ (p : Premises) (s t : State), s.dutyBroken p = false → s.wakeSettling p = false → exec .idle s = .next t → t.err = .ok →
    t.dutyBroken p = false ∧ ∀ d ∈ t.possibleDevices p, ∃ e ∈ s.possibleDevices p,
      (e.power = .awake → d = ⟨.idle, true⟩) ∧ (e.power ≠ .awake → d = e)

/-- R40, R46 (log entry 17): after a WAKE, however it ended, the device may be awake: `ps` is the block's belief and may
disagree with the device. -/
def Obligations.WakeMayWakeDevice : Prop :=
  ∀ (p : Premises) (s t : State), exec .wake s = .next t → s.possibleDevices p ≠ [] →
    ∃ d ∈ t.possibleDevices p, d.power = .awake

/-- R124, C8 (log entry 17): after a SLEEP that ended with `Ok` from an awake device both outcomes stay open: asleep with
transient state discarded, or idle with it kept. -/
def Obligations.SleepLeavesBothOutcomesOpen : Prop :=
  ∀ (p : Premises) (s t : State), exec .sleep s = .next t → t.err = .ok → s.cfg.Legal →
    (∃ d ∈ s.possibleDevices p, d.power = .awake) →
    ⟨.sleeping, false⟩ ∈ t.possibleDevices p ∧ ⟨.idle, true⟩ ∈ t.possibleDevices p

/-- R46, R270, U7 (which breaches the trace shows is log entry 17): a response read without the processing delay of the command
(R262), and a frame transmitted with the response of the one before not yet read (R263), leave the device in any state at
all; so does an operation that writes inside the wait after a wake pulse (R121), and every instruction after a breach: nothing
brings the claim back. -/
def Obligations.BrokenDutyLeavesDeviceUnknown : Prop :=
  ∀ (p : Premises) (s : State),
    (∀ (i : Instr) (t : State), exec i s = .next t → s.dutyBroken p = true →
      t.dutyBroken p = true ∧ ∀ d : DeviceState, d ∈ t.possibleDevices p) ∧
    (∀ (n : Byte) (t u : State), (∀ op, 1000 ≤ p.catalogue.tExec op) → s.Inv → exec .transmit s = .next t → t.err = .ok → n ≠ 0#8 →
      exec (.receive n) t = .next u → u.dutyBroken p = true ∧ ∀ d : DeviceState, d ∈ u.possibleDevices p) ∧
    (∀ t u : State, s.Inv → exec .transmit s = .next t → t.err = .ok → exec .transmit t = .next u →
      u.dutyBroken p = true ∧ ∀ d : DeviceState, d ∈ u.possibleDevices p) ∧
    (∀ (i : Instr) (t : State), (i = .idle ∨ i = .sleep ∨ i = .wake ∨ i = .transmit) → s.wakeSettling p = true →
      exec i s = .next t → t.dutyBroken p = true ∧ ∀ d : DeviceState, d ∈ t.possibleDevices p)
end

