-- ==== Sys2Proof/Laws/Crc.lean ====
section
/-! SUPPORT. The CRC unit as arithmetic: the step bit by bit, its behaviour on zeros and on XOR, the pair and its
register, and the frames built from it. -/

namespace Sys2Proof.Machine

@[simp] theorem join_low (high low : Byte) : (high ++ low).extractLsb' 0 8 = low := by
  apply BitVec.eq_of_getLsbD_eq
  intro i hi
  rw [BitVec.getLsbD_extractLsb', BitVec.getLsbD_append]
  simp only [Nat.zero_add, hi, decide_true, Bool.true_and, if_true]

@[simp] theorem join_high (high low : Byte) : (high ++ low).extractLsb' 8 8 = high := by
  apply BitVec.eq_of_getLsbD_eq
  intro i hi
  rw [BitVec.getLsbD_extractLsb', BitVec.getLsbD_append]
  have h1 : ¬ 8 + i < 8 := by omega
  have h2 : 8 + i - 8 = i := by omega
  simp only [hi, decide_true, Bool.true_and, if_neg h1, h2]

/-- The register is its two bytes. -/
@[simp] theorem join_split (r : Half) : r.extractLsb' 8 8 ++ r.extractLsb' 0 8 = r := by
  apply BitVec.eq_of_getLsbD_eq
  intro i hi
  simp only [BitVec.getLsbD_append, BitVec.getLsbD_extractLsb']
  by_cases h : i < 8
  · simp only [h, decide_true, Bool.true_and, if_true, Nat.zero_add]
  · have h1 : i - 8 < 8 := by omega
    have h2 : 8 + (i - 8) = i := by omega
    simp only [if_neg h, h1, decide_true, Bool.true_and, h2]

@[simp] theorem crcPair_join (r : Half) : (crcPair r).hi ++ (crcPair r).lo = r := join_split r

theorem crcPair_injective {q r : Half} (h : crcPair q = crcPair r) : q = r := by
  rw [← crcPair_join q, h, crcPair_join]

theorem crcPair_of_join (c : CrcPair) : crcPair (c.hi ++ c.lo) = c := by simp [crcPair]

@[simp] theorem CrcPair.bytes_length (c : CrcPair) : c.bytes.length = 2 := rfl

theorem CrcPair.bytes_injective {c d : CrcPair} (h : c.bytes = d.bytes) : c = d := by
  cases c; cases d; simpa [CrcPair.bytes] using h

/-- R104 as one equation: every bit of the register after a shift. -/
theorem crcShiftStep_getLsbD (r : Half) (d : Bool) (i : Nat) (hi : i < 16) :
    (crcShiftStep r d).getLsbD i =
      Bool.xor (decide (1 ≤ i) && r.getLsbD (i - 1)) (Bool.xor d (r.getLsbD 15) && Config.poly.getLsbD i) := by
  have hs : (r <<< 1).getLsbD i = (decide (1 ≤ i) && r.getLsbD (i - 1)) := by
    rw [BitVec.getLsbD_shiftLeft]
    by_cases h : i < 1
    · simp [h]
    · have : 1 ≤ i := by omega
      simp only [hi, h, this, decide_true, decide_false, Bool.not_false, Bool.true_and]
  unfold crcShiftStep
  by_cases h : d = r.getLsbD 15
  · rw [if_neg (by simpa using h), hs, h, Bool.xor_self, Bool.false_and, Bool.xor_false]
  · have hx : Bool.xor d (r.getLsbD 15) = true := by cases d <;> cases hr : r.getLsbD 15 <;> simp_all
    rw [if_pos h, BitVec.getLsbD_xor, hs, hx, Bool.true_and]

/-- One shift is linear in the register and the data bit together. -/
theorem crcShiftStep_xor (q r : Half) (c d : Bool) :
    crcShiftStep (q ^^^ r) (Bool.xor c d) = crcShiftStep q c ^^^ crcShiftStep r d := by
  apply BitVec.eq_of_getLsbD_eq
  intro i hi
  simp only [BitVec.getLsbD_xor, crcShiftStep_getLsbD _ _ i hi]
  generalize Config.poly.getLsbD i = z
  generalize decide (1 ≤ i) = w
  generalize q.getLsbD (i - 1) = a
  generalize r.getLsbD (i - 1) = b
  generalize q.getLsbD 15 = x
  generalize r.getLsbD 15 = y
  revert z w a b x y c d
  decide

/-- A zero register stays zero under zero data bits. -/
@[simp] theorem crcShiftStep_zero : crcShiftStep 0#16 false = 0#16 := by decide

theorem crcByteStep_xor (q r : Half) (a b : Byte) :
    crcByteStep (q ^^^ r) (a ^^^ b) = crcByteStep q a ^^^ crcByteStep r b := by
  simp only [crcByteStep, BitVec.getLsbD_xor, crcShiftStep_xor]

@[simp] theorem crcByteStep_zero : crcByteStep 0#16 0#8 = 0#16 := by decide

theorem crcBytesStep_append (r : Half) (a b : List Byte) :
    crcBytesStep r (a ++ b) = crcBytesStep (crcBytesStep r a) b := by
  induction a generalizing r with
  | nil => rfl
  | cons x a ih => simp [crcBytesStep, ih]

theorem crcBytesStep_zeros (n : Nat) : crcBytesStep 0#16 (List.replicate n 0x00#8) = 0#16 := by
  induction n with
  | zero => rfl
  | succ n ih => simpa [List.replicate_succ, crcBytesStep] using ih

theorem crcBytesStep_xor (a b : List Byte) (h : a.length = b.length) (q r : Half) :
    crcBytesStep (q ^^^ r) (List.zipWith (· ^^^ ·) a b) = crcBytesStep q a ^^^ crcBytesStep r b := by
  induction a generalizing b q r with
  | nil => cases b with
    | nil => rfl
    | cons y b => simp at h
  | cons x a ih => cases b with
    | nil => simp at h
    | cons y b =>
      simp only [List.zipWith_cons_cons, crcBytesStep, crcByteStep_xor]
      exact ih b (by simpa using h) _ _

/-! ### The textbook generator of R109 -/

theorem msbFirstBit_eq (r : Half) (d : Bool) : msbFirstBit r d = crcShiftStep r d := by
  have h : r.msb = r.getLsbD 15 := by simp [BitVec.msb_eq_getLsbD_last]
  unfold msbFirstBit crcShiftStep
  rw [h]
  cases d <;> cases r.getLsbD 15 <;> simp

theorem reverseBits_getLsbD (b : Byte) (i : Nat) (h : i < 8) : (reverseBits b).getLsbD i = b.getLsbD (7 - i) := by
  rw [reverseBits, BitVec.getLsbD_reverse, BitVec.getMsbD]
  simp [h]

theorem msbFirstByte_reverse (r : Half) (b : Byte) : msbFirstByte r (reverseBits b) = crcByteStep r b := by
  simp only [msbFirstByte, List.foldl_cons, List.foldl_nil, msbFirstBit_eq, crcByteStep,
    reverseBits_getLsbD b _ (by decide : 7 < 8), reverseBits_getLsbD b _ (by decide : 6 < 8),
    reverseBits_getLsbD b _ (by decide : 5 < 8), reverseBits_getLsbD b _ (by decide : 4 < 8),
    reverseBits_getLsbD b _ (by decide : 3 < 8), reverseBits_getLsbD b _ (by decide : 2 < 8),
    reverseBits_getLsbD b _ (by decide : 1 < 8), reverseBits_getLsbD b _ (by decide : 0 < 8), Nat.reduceSub, Nat.sub_self]

/-! ### Frames -/

@[simp] theorem param2Low_of (low high : Byte) : param2Low (param2Of low high) = low := join_low high low

@[simp] theorem param2High_of (low high : Byte) : param2High (param2Of low high) = high := join_high high low

@[simp] theorem param2Of_split (v : Half) : param2Of (param2Low v) (param2High v) = v := join_split v

@[simp] theorem outBody_length (opcode param1 : Byte) (param2 : Half) (data : List Byte) :
    (outBody opcode param1 param2 data).length = 5 + data.length := by simp [outBody]; omega

@[simp] theorem outFrameBytes_length (pfx opcode param1 : Byte) (param2 : Half) (data : List Byte) :
    (outFrameBytes pfx opcode param1 param2 data).length = 8 + data.length := by simp [outFrameBytes]; omega

@[simp] theorem inBody_length (payload : List Byte) : (inBody payload).length = payload.length + 1 := by simp [inBody]

@[simp] theorem inFrameBytes_length (payload : List Byte) : (inFrameBytes payload).length = payload.length + 3 := by
  simp [inFrameBytes]

/-- The wake response is the inbound frame with the signal byte as its payload (R75). -/
theorem wakeResponse_eq_inFrame : wakeResponseBytes = inFrameBytes [Config.wakeSignal] := by decide +kernel

end Sys2Proof.Machine
end

