-- ==== Sys2Proof/Laws/State.lean ====
section
/-! SUPPORT. One lemma per field per update of the state, so that no later proof unfolds a record update. -/

namespace Sys2Proof.Machine

@[simp] theorem State.complete_eq (s : State) (o : Output) : s.complete o = s.finish .ok o := rfl
@[simp] theorem State.raiseError_eq (s : State) (e : ResultCode) : s.raiseError e = s.finish e .none := rfl
@[simp] theorem State.trWrite_fst (s : State) (a : BusAddr) (c : List Byte) : (s.trWrite a c).1 = s.nextAck := rfl
@[simp] theorem State.trWrite_snd (s : State) (a : BusAddr) (c : List Byte) :
    (s.trWrite a c).2 = s.dropAck.logEvent (.wr a c s.nextAck) := rfl
@[simp] theorem State.trRead_fst (s : State) (a : BusAddr) (m : Nat) : (s.trRead a m).1 = s.nextRead m := rfl
@[simp] theorem State.trRead_snd (s : State) (a : BusAddr) (m : Nat) :
    (s.trRead a m).2 = (s.dropRead m).logEvent (.rd a m (s.nextRead m)) := rfl

/-! ### `finish` -/

@[simp] theorem State.finish_crcReg (s : State) (r : ResultCode) (o : Output) : (s.finish r o).crcReg = s.crcReg := rfl
@[simp] theorem State.finish_lastCrc (s : State) (r : ResultCode) (o : Output) :
    (s.finish r o).lastCrc = s.lastCrc := rfl
@[simp] theorem State.finish_rxbuf (s : State) (r : ResultCode) (o : Output) : (s.finish r o).rxbuf = s.rxbuf := rfl
@[simp] theorem State.finish_rxTotal (s : State) (r : ResultCode) (o : Output) :
    (s.finish r o).rxTotal = s.rxTotal := rfl
@[simp] theorem State.finish_rxExpected (s : State) (r : ResultCode) (o : Output) :
    (s.finish r o).rxExpected = s.rxExpected := rfl
@[simp] theorem State.finish_attempts (s : State) (r : ResultCode) (o : Output) :
    (s.finish r o).attempts = s.attempts := rfl
@[simp] theorem State.finish_exhausted (s : State) (r : ResultCode) (o : Output) :
    (s.finish r o).exhausted = s.exhausted := rfl
@[simp] theorem State.finish_overflow (s : State) (r : ResultCode) (o : Output) :
    (s.finish r o).overflow = s.overflow := rfl
@[simp] theorem State.finish_ps (s : State) (r : ResultCode) (o : Output) : (s.finish r o).ps = s.ps := rfl
@[simp] theorem State.finish_err (s : State) (r : ResultCode) (o : Output) : (s.finish r o).err = r := rfl
@[simp] theorem State.finish_devAddr (s : State) (r : ResultCode) (o : Output) :
    (s.finish r o).devAddr = s.devAddr := rfl
@[simp] theorem State.finish_txbuf (s : State) (r : ResultCode) (o : Output) : (s.finish r o).txbuf = s.txbuf := rfl
@[simp] theorem State.finish_txLen (s : State) (r : ResultCode) (o : Output) : (s.finish r o).txLen = s.txLen := rfl
@[simp] theorem State.finish_cfg (s : State) (r : ResultCode) (o : Output) : (s.finish r o).cfg = s.cfg := rfl
@[simp] theorem State.finish_output (s : State) (r : ResultCode) (o : Output) : (s.finish r o).output = o := rfl
@[simp] theorem State.finish_inputs (s : State) (r : ResultCode) (o : Output) : (s.finish r o).inputs = s.inputs := rfl
@[simp] theorem State.finish_writeAnswers (s : State) (r : ResultCode) (o : Output) :
    (s.finish r o).writeAnswers = s.writeAnswers := rfl
@[simp] theorem State.finish_readAnswers (s : State) (r : ResultCode) (o : Output) :
    (s.finish r o).readAnswers = s.readAnswers := rfl
@[simp] theorem State.finish_draws (s : State) (r : ResultCode) (o : Output) : (s.finish r o).draws = s.draws := rfl
@[simp] theorem State.finish_trace (s : State) (r : ResultCode) (o : Output) : (s.finish r o).trace = s.trace := rfl

/-! ### `setPs` -/

@[simp] theorem State.setPs_crcReg (s : State) (p : PowerState) : (s.setPs p).crcReg = s.crcReg := rfl
@[simp] theorem State.setPs_lastCrc (s : State) (p : PowerState) : (s.setPs p).lastCrc = s.lastCrc := rfl
@[simp] theorem State.setPs_rxbuf (s : State) (p : PowerState) : (s.setPs p).rxbuf = s.rxbuf := rfl
@[simp] theorem State.setPs_rxTotal (s : State) (p : PowerState) : (s.setPs p).rxTotal = s.rxTotal := rfl
@[simp] theorem State.setPs_rxExpected (s : State) (p : PowerState) : (s.setPs p).rxExpected = s.rxExpected := rfl
@[simp] theorem State.setPs_attempts (s : State) (p : PowerState) : (s.setPs p).attempts = s.attempts := rfl
@[simp] theorem State.setPs_exhausted (s : State) (p : PowerState) : (s.setPs p).exhausted = s.exhausted := rfl
@[simp] theorem State.setPs_overflow (s : State) (p : PowerState) : (s.setPs p).overflow = s.overflow := rfl
@[simp] theorem State.setPs_ps (s : State) (p : PowerState) : (s.setPs p).ps = p := rfl
@[simp] theorem State.setPs_err (s : State) (p : PowerState) : (s.setPs p).err = s.err := rfl
@[simp] theorem State.setPs_devAddr (s : State) (p : PowerState) : (s.setPs p).devAddr = s.devAddr := rfl
@[simp] theorem State.setPs_txbuf (s : State) (p : PowerState) : (s.setPs p).txbuf = s.txbuf := rfl
@[simp] theorem State.setPs_txLen (s : State) (p : PowerState) : (s.setPs p).txLen = s.txLen := rfl
@[simp] theorem State.setPs_cfg (s : State) (p : PowerState) : (s.setPs p).cfg = s.cfg := rfl
@[simp] theorem State.setPs_output (s : State) (p : PowerState) : (s.setPs p).output = s.output := rfl
@[simp] theorem State.setPs_inputs (s : State) (p : PowerState) : (s.setPs p).inputs = s.inputs := rfl
@[simp] theorem State.setPs_writeAnswers (s : State) (p : PowerState) :
    (s.setPs p).writeAnswers = s.writeAnswers := rfl
@[simp] theorem State.setPs_readAnswers (s : State) (p : PowerState) : (s.setPs p).readAnswers = s.readAnswers := rfl
@[simp] theorem State.setPs_draws (s : State) (p : PowerState) : (s.setPs p).draws = s.draws := rfl
@[simp] theorem State.setPs_trace (s : State) (p : PowerState) : (s.setPs p).trace = s.trace := rfl

/-! ### `setCrc` -/

@[simp] theorem State.setCrc_crcReg (s : State) (r : Half) : (s.setCrc r).crcReg = r := rfl
@[simp] theorem State.setCrc_lastCrc (s : State) (r : Half) : (s.setCrc r).lastCrc = s.lastCrc := rfl
@[simp] theorem State.setCrc_rxbuf (s : State) (r : Half) : (s.setCrc r).rxbuf = s.rxbuf := rfl
@[simp] theorem State.setCrc_rxTotal (s : State) (r : Half) : (s.setCrc r).rxTotal = s.rxTotal := rfl
@[simp] theorem State.setCrc_rxExpected (s : State) (r : Half) : (s.setCrc r).rxExpected = s.rxExpected := rfl
@[simp] theorem State.setCrc_attempts (s : State) (r : Half) : (s.setCrc r).attempts = s.attempts := rfl
@[simp] theorem State.setCrc_exhausted (s : State) (r : Half) : (s.setCrc r).exhausted = s.exhausted := rfl
@[simp] theorem State.setCrc_overflow (s : State) (r : Half) : (s.setCrc r).overflow = s.overflow := rfl
@[simp] theorem State.setCrc_ps (s : State) (r : Half) : (s.setCrc r).ps = s.ps := rfl
@[simp] theorem State.setCrc_err (s : State) (r : Half) : (s.setCrc r).err = s.err := rfl
@[simp] theorem State.setCrc_devAddr (s : State) (r : Half) : (s.setCrc r).devAddr = s.devAddr := rfl
@[simp] theorem State.setCrc_txbuf (s : State) (r : Half) : (s.setCrc r).txbuf = s.txbuf := rfl
@[simp] theorem State.setCrc_txLen (s : State) (r : Half) : (s.setCrc r).txLen = s.txLen := rfl
@[simp] theorem State.setCrc_cfg (s : State) (r : Half) : (s.setCrc r).cfg = s.cfg := rfl
@[simp] theorem State.setCrc_output (s : State) (r : Half) : (s.setCrc r).output = s.output := rfl
@[simp] theorem State.setCrc_inputs (s : State) (r : Half) : (s.setCrc r).inputs = s.inputs := rfl
@[simp] theorem State.setCrc_writeAnswers (s : State) (r : Half) : (s.setCrc r).writeAnswers = s.writeAnswers := rfl
@[simp] theorem State.setCrc_readAnswers (s : State) (r : Half) : (s.setCrc r).readAnswers = s.readAnswers := rfl
@[simp] theorem State.setCrc_draws (s : State) (r : Half) : (s.setCrc r).draws = s.draws := rfl
@[simp] theorem State.setCrc_trace (s : State) (r : Half) : (s.setCrc r).trace = s.trace := rfl

/-! ### `setCodecCrc` -/

@[simp] theorem State.setCodecCrc_crcReg (s : State) (r : Half) : (s.setCodecCrc r).crcReg = r := rfl
@[simp] theorem State.setCodecCrc_lastCrc (s : State) (r : Half) : (s.setCodecCrc r).lastCrc = crcPair r := rfl
@[simp] theorem State.setCodecCrc_rxbuf (s : State) (r : Half) : (s.setCodecCrc r).rxbuf = s.rxbuf := rfl
@[simp] theorem State.setCodecCrc_rxTotal (s : State) (r : Half) : (s.setCodecCrc r).rxTotal = s.rxTotal := rfl
@[simp] theorem State.setCodecCrc_rxExpected (s : State) (r : Half) :
    (s.setCodecCrc r).rxExpected = s.rxExpected := rfl
@[simp] theorem State.setCodecCrc_attempts (s : State) (r : Half) : (s.setCodecCrc r).attempts = s.attempts := rfl
@[simp] theorem State.setCodecCrc_exhausted (s : State) (r : Half) : (s.setCodecCrc r).exhausted = s.exhausted := rfl
@[simp] theorem State.setCodecCrc_overflow (s : State) (r : Half) : (s.setCodecCrc r).overflow = s.overflow := rfl
@[simp] theorem State.setCodecCrc_ps (s : State) (r : Half) : (s.setCodecCrc r).ps = s.ps := rfl
@[simp] theorem State.setCodecCrc_err (s : State) (r : Half) : (s.setCodecCrc r).err = s.err := rfl
@[simp] theorem State.setCodecCrc_devAddr (s : State) (r : Half) : (s.setCodecCrc r).devAddr = s.devAddr := rfl
@[simp] theorem State.setCodecCrc_txbuf (s : State) (r : Half) : (s.setCodecCrc r).txbuf = s.txbuf := rfl
@[simp] theorem State.setCodecCrc_txLen (s : State) (r : Half) : (s.setCodecCrc r).txLen = s.txLen := rfl
@[simp] theorem State.setCodecCrc_cfg (s : State) (r : Half) : (s.setCodecCrc r).cfg = s.cfg := rfl
@[simp] theorem State.setCodecCrc_output (s : State) (r : Half) : (s.setCodecCrc r).output = s.output := rfl
@[simp] theorem State.setCodecCrc_inputs (s : State) (r : Half) : (s.setCodecCrc r).inputs = s.inputs := rfl
@[simp] theorem State.setCodecCrc_writeAnswers (s : State) (r : Half) :
    (s.setCodecCrc r).writeAnswers = s.writeAnswers := rfl
@[simp] theorem State.setCodecCrc_readAnswers (s : State) (r : Half) :
    (s.setCodecCrc r).readAnswers = s.readAnswers := rfl
@[simp] theorem State.setCodecCrc_draws (s : State) (r : Half) : (s.setCodecCrc r).draws = s.draws := rfl
@[simp] theorem State.setCodecCrc_trace (s : State) (r : Half) : (s.setCodecCrc r).trace = s.trace := rfl

/-! ### `logEvent` -/

@[simp] theorem State.logEvent_crcReg (s : State) (e : Event) : (s.logEvent e).crcReg = s.crcReg := rfl
@[simp] theorem State.logEvent_lastCrc (s : State) (e : Event) : (s.logEvent e).lastCrc = s.lastCrc := rfl
@[simp] theorem State.logEvent_rxbuf (s : State) (e : Event) : (s.logEvent e).rxbuf = s.rxbuf := rfl
@[simp] theorem State.logEvent_rxTotal (s : State) (e : Event) : (s.logEvent e).rxTotal = s.rxTotal := rfl
@[simp] theorem State.logEvent_rxExpected (s : State) (e : Event) : (s.logEvent e).rxExpected = s.rxExpected := rfl
@[simp] theorem State.logEvent_attempts (s : State) (e : Event) : (s.logEvent e).attempts = s.attempts := rfl
@[simp] theorem State.logEvent_exhausted (s : State) (e : Event) : (s.logEvent e).exhausted = s.exhausted := rfl
@[simp] theorem State.logEvent_overflow (s : State) (e : Event) : (s.logEvent e).overflow = s.overflow := rfl
@[simp] theorem State.logEvent_ps (s : State) (e : Event) : (s.logEvent e).ps = s.ps := rfl
@[simp] theorem State.logEvent_err (s : State) (e : Event) : (s.logEvent e).err = s.err := rfl
@[simp] theorem State.logEvent_devAddr (s : State) (e : Event) : (s.logEvent e).devAddr = s.devAddr := rfl
@[simp] theorem State.logEvent_txbuf (s : State) (e : Event) : (s.logEvent e).txbuf = s.txbuf := rfl
@[simp] theorem State.logEvent_txLen (s : State) (e : Event) : (s.logEvent e).txLen = s.txLen := rfl
@[simp] theorem State.logEvent_cfg (s : State) (e : Event) : (s.logEvent e).cfg = s.cfg := rfl
@[simp] theorem State.logEvent_output (s : State) (e : Event) : (s.logEvent e).output = s.output := rfl
@[simp] theorem State.logEvent_inputs (s : State) (e : Event) : (s.logEvent e).inputs = s.inputs := rfl
@[simp] theorem State.logEvent_writeAnswers (s : State) (e : Event) :
    (s.logEvent e).writeAnswers = s.writeAnswers := rfl
@[simp] theorem State.logEvent_readAnswers (s : State) (e : Event) : (s.logEvent e).readAnswers = s.readAnswers := rfl
@[simp] theorem State.logEvent_draws (s : State) (e : Event) : (s.logEvent e).draws = s.draws := rfl
@[simp] theorem State.logEvent_trace (s : State) (e : Event) : (s.logEvent e).trace = s.trace ++ [e] := rfl

/-! ### `trDelay` -/

@[simp] theorem State.trDelay_crcReg (s : State) (n : Nat) : (s.trDelay n).crcReg = s.crcReg := rfl
@[simp] theorem State.trDelay_lastCrc (s : State) (n : Nat) : (s.trDelay n).lastCrc = s.lastCrc := rfl
@[simp] theorem State.trDelay_rxbuf (s : State) (n : Nat) : (s.trDelay n).rxbuf = s.rxbuf := rfl
@[simp] theorem State.trDelay_rxTotal (s : State) (n : Nat) : (s.trDelay n).rxTotal = s.rxTotal := rfl
@[simp] theorem State.trDelay_rxExpected (s : State) (n : Nat) : (s.trDelay n).rxExpected = s.rxExpected := rfl
@[simp] theorem State.trDelay_attempts (s : State) (n : Nat) : (s.trDelay n).attempts = s.attempts := rfl
@[simp] theorem State.trDelay_exhausted (s : State) (n : Nat) : (s.trDelay n).exhausted = s.exhausted := rfl
@[simp] theorem State.trDelay_overflow (s : State) (n : Nat) : (s.trDelay n).overflow = s.overflow := rfl
@[simp] theorem State.trDelay_ps (s : State) (n : Nat) : (s.trDelay n).ps = s.ps := rfl
@[simp] theorem State.trDelay_err (s : State) (n : Nat) : (s.trDelay n).err = s.err := rfl
@[simp] theorem State.trDelay_devAddr (s : State) (n : Nat) : (s.trDelay n).devAddr = s.devAddr := rfl
@[simp] theorem State.trDelay_txbuf (s : State) (n : Nat) : (s.trDelay n).txbuf = s.txbuf := rfl
@[simp] theorem State.trDelay_txLen (s : State) (n : Nat) : (s.trDelay n).txLen = s.txLen := rfl
@[simp] theorem State.trDelay_cfg (s : State) (n : Nat) : (s.trDelay n).cfg = s.cfg := rfl
@[simp] theorem State.trDelay_output (s : State) (n : Nat) : (s.trDelay n).output = s.output := rfl
@[simp] theorem State.trDelay_inputs (s : State) (n : Nat) : (s.trDelay n).inputs = s.inputs := rfl
@[simp] theorem State.trDelay_writeAnswers (s : State) (n : Nat) : (s.trDelay n).writeAnswers = s.writeAnswers := rfl
@[simp] theorem State.trDelay_readAnswers (s : State) (n : Nat) : (s.trDelay n).readAnswers = s.readAnswers := rfl
@[simp] theorem State.trDelay_draws (s : State) (n : Nat) : (s.trDelay n).draws = s.draws := rfl
@[simp] theorem State.trDelay_trace (s : State) (n : Nat) : (s.trDelay n).trace = s.trace ++ [.dly n] := rfl

/-! ### `offerFrame` -/

@[simp] theorem State.offerFrame_crcReg (s : State) (c : List Byte) : (s.offerFrame c).crcReg = s.crcReg := rfl
@[simp] theorem State.offerFrame_lastCrc (s : State) (c : List Byte) : (s.offerFrame c).lastCrc = s.lastCrc := rfl
@[simp] theorem State.offerFrame_rxbuf (s : State) (c : List Byte) : (s.offerFrame c).rxbuf = s.rxbuf := rfl
@[simp] theorem State.offerFrame_rxTotal (s : State) (c : List Byte) : (s.offerFrame c).rxTotal = s.rxTotal := rfl
@[simp] theorem State.offerFrame_rxExpected (s : State) (c : List Byte) :
    (s.offerFrame c).rxExpected = s.rxExpected := rfl
@[simp] theorem State.offerFrame_attempts (s : State) (c : List Byte) : (s.offerFrame c).attempts = s.attempts := rfl
@[simp] theorem State.offerFrame_exhausted (s : State) (c : List Byte) :
    (s.offerFrame c).exhausted = s.exhausted := rfl
@[simp] theorem State.offerFrame_overflow (s : State) (c : List Byte) : (s.offerFrame c).overflow = s.overflow := rfl
@[simp] theorem State.offerFrame_ps (s : State) (c : List Byte) : (s.offerFrame c).ps = s.ps := rfl
@[simp] theorem State.offerFrame_err (s : State) (c : List Byte) : (s.offerFrame c).err = s.err := rfl
@[simp] theorem State.offerFrame_devAddr (s : State) (c : List Byte) : (s.offerFrame c).devAddr = s.devAddr := rfl
@[simp] theorem State.offerFrame_txbuf (s : State) (c : List Byte) : (s.offerFrame c).txbuf = s.txbuf := rfl
@[simp] theorem State.offerFrame_txLen (s : State) (c : List Byte) : (s.offerFrame c).txLen = s.txLen := rfl
@[simp] theorem State.offerFrame_cfg (s : State) (c : List Byte) : (s.offerFrame c).cfg = s.cfg := rfl
@[simp] theorem State.offerFrame_output (s : State) (c : List Byte) : (s.offerFrame c).output = s.output := rfl
@[simp] theorem State.offerFrame_inputs (s : State) (c : List Byte) : (s.offerFrame c).inputs = s.inputs := rfl
@[simp] theorem State.offerFrame_writeAnswers (s : State) (c : List Byte) :
    (s.offerFrame c).writeAnswers = s.writeAnswers := rfl
@[simp] theorem State.offerFrame_readAnswers (s : State) (c : List Byte) :
    (s.offerFrame c).readAnswers = s.readAnswers ++ [.frame c] := rfl
@[simp] theorem State.offerFrame_draws (s : State) (c : List Byte) : (s.offerFrame c).draws = s.draws := rfl
@[simp] theorem State.offerFrame_trace (s : State) (c : List Byte) : (s.offerFrame c).trace = s.trace := rfl

/-! ### `putFrame` -/

@[simp] theorem State.putFrame_crcReg (s : State) (c : List Byte) : (s.putFrame c).crcReg = s.crcReg := rfl
@[simp] theorem State.putFrame_lastCrc (s : State) (c : List Byte) : (s.putFrame c).lastCrc = s.lastCrc := rfl
@[simp] theorem State.putFrame_rxbuf (s : State) (c : List Byte) : (s.putFrame c).rxbuf = s.rxbuf := rfl
@[simp] theorem State.putFrame_rxTotal (s : State) (c : List Byte) : (s.putFrame c).rxTotal = s.rxTotal := rfl
@[simp] theorem State.putFrame_rxExpected (s : State) (c : List Byte) : (s.putFrame c).rxExpected = s.rxExpected := rfl
@[simp] theorem State.putFrame_attempts (s : State) (c : List Byte) : (s.putFrame c).attempts = s.attempts := rfl
@[simp] theorem State.putFrame_exhausted (s : State) (c : List Byte) : (s.putFrame c).exhausted = s.exhausted := rfl
@[simp] theorem State.putFrame_overflow (s : State) (c : List Byte) : (s.putFrame c).overflow = s.overflow := rfl
@[simp] theorem State.putFrame_ps (s : State) (c : List Byte) : (s.putFrame c).ps = s.ps := rfl
@[simp] theorem State.putFrame_err (s : State) (c : List Byte) : (s.putFrame c).err = s.err := rfl
@[simp] theorem State.putFrame_devAddr (s : State) (c : List Byte) : (s.putFrame c).devAddr = s.devAddr := rfl
@[simp] theorem State.putFrame_txbuf (s : State) (c : List Byte) : (s.putFrame c).txbuf = s.txbuf.writeList 0 c := rfl
@[simp] theorem State.putFrame_txLen (s : State) (c : List Byte) :
    (s.putFrame c).txLen = BitVec.ofNat 9 c.length := rfl
@[simp] theorem State.putFrame_cfg (s : State) (c : List Byte) : (s.putFrame c).cfg = s.cfg := rfl
@[simp] theorem State.putFrame_output (s : State) (c : List Byte) : (s.putFrame c).output = s.output := rfl
@[simp] theorem State.putFrame_inputs (s : State) (c : List Byte) : (s.putFrame c).inputs = s.inputs := rfl
@[simp] theorem State.putFrame_writeAnswers (s : State) (c : List Byte) :
    (s.putFrame c).writeAnswers = s.writeAnswers := rfl
@[simp] theorem State.putFrame_readAnswers (s : State) (c : List Byte) :
    (s.putFrame c).readAnswers = s.readAnswers := rfl
@[simp] theorem State.putFrame_draws (s : State) (c : List Byte) : (s.putFrame c).draws = s.draws := rfl
@[simp] theorem State.putFrame_trace (s : State) (c : List Byte) : (s.putFrame c).trace = s.trace := rfl

/-! ### `dropFrame` -/

@[simp] theorem State.dropFrame_crcReg (s : State) : s.dropFrame.crcReg = s.crcReg := rfl
@[simp] theorem State.dropFrame_lastCrc (s : State) : s.dropFrame.lastCrc = s.lastCrc := rfl
@[simp] theorem State.dropFrame_rxbuf (s : State) : s.dropFrame.rxbuf = s.rxbuf := rfl
@[simp] theorem State.dropFrame_rxTotal (s : State) : s.dropFrame.rxTotal = s.rxTotal := rfl
@[simp] theorem State.dropFrame_rxExpected (s : State) : s.dropFrame.rxExpected = s.rxExpected := rfl
@[simp] theorem State.dropFrame_attempts (s : State) : s.dropFrame.attempts = s.attempts := rfl
@[simp] theorem State.dropFrame_exhausted (s : State) : s.dropFrame.exhausted = s.exhausted := rfl
@[simp] theorem State.dropFrame_overflow (s : State) : s.dropFrame.overflow = s.overflow := rfl
@[simp] theorem State.dropFrame_ps (s : State) : s.dropFrame.ps = s.ps := rfl
@[simp] theorem State.dropFrame_err (s : State) : s.dropFrame.err = s.err := rfl
@[simp] theorem State.dropFrame_devAddr (s : State) : s.dropFrame.devAddr = s.devAddr := rfl
@[simp] theorem State.dropFrame_txbuf (s : State) : s.dropFrame.txbuf = s.txbuf := rfl
@[simp] theorem State.dropFrame_txLen (s : State) : s.dropFrame.txLen = 0#9 := rfl
@[simp] theorem State.dropFrame_cfg (s : State) : s.dropFrame.cfg = s.cfg := rfl
@[simp] theorem State.dropFrame_output (s : State) : s.dropFrame.output = s.output := rfl
@[simp] theorem State.dropFrame_inputs (s : State) : s.dropFrame.inputs = s.inputs := rfl
@[simp] theorem State.dropFrame_writeAnswers (s : State) : s.dropFrame.writeAnswers = s.writeAnswers := rfl
@[simp] theorem State.dropFrame_readAnswers (s : State) : s.dropFrame.readAnswers = s.readAnswers := rfl
@[simp] theorem State.dropFrame_draws (s : State) : s.dropFrame.draws = s.draws := rfl
@[simp] theorem State.dropFrame_trace (s : State) : s.dropFrame.trace = s.trace := rfl

/-! ### `startReceive` -/

@[simp] theorem State.startReceive_crcReg (s : State) (n : Byte) : (s.startReceive n).crcReg = s.crcReg := rfl
@[simp] theorem State.startReceive_lastCrc (s : State) (n : Byte) : (s.startReceive n).lastCrc = s.lastCrc := rfl
@[simp] theorem State.startReceive_rxbuf (s : State) (n : Byte) :
    (s.startReceive n).rxbuf = Memory.fill Config.rxbufCap Config.sentinel := rfl
@[simp] theorem State.startReceive_rxTotal (s : State) (n : Byte) : (s.startReceive n).rxTotal = 0#8 := rfl
@[simp] theorem State.startReceive_rxExpected (s : State) (n : Byte) :
    (s.startReceive n).rxExpected = if n.toNat ≤ Config.rxbufCap then n else BitVec.ofNat 8 Config.rxbufCap := rfl
@[simp] theorem State.startReceive_attempts (s : State) (n : Byte) : (s.startReceive n).attempts = 0#5 := rfl
@[simp] theorem State.startReceive_exhausted (s : State) (n : Byte) : (s.startReceive n).exhausted = false := rfl
@[simp] theorem State.startReceive_overflow (s : State) (n : Byte) : (s.startReceive n).overflow = false := rfl
@[simp] theorem State.startReceive_ps (s : State) (n : Byte) : (s.startReceive n).ps = s.ps := rfl
@[simp] theorem State.startReceive_err (s : State) (n : Byte) : (s.startReceive n).err = s.err := rfl
@[simp] theorem State.startReceive_devAddr (s : State) (n : Byte) : (s.startReceive n).devAddr = s.devAddr := rfl
@[simp] theorem State.startReceive_txbuf (s : State) (n : Byte) : (s.startReceive n).txbuf = s.txbuf := rfl
@[simp] theorem State.startReceive_txLen (s : State) (n : Byte) : (s.startReceive n).txLen = s.txLen := rfl
@[simp] theorem State.startReceive_cfg (s : State) (n : Byte) : (s.startReceive n).cfg = s.cfg := rfl
@[simp] theorem State.startReceive_output (s : State) (n : Byte) : (s.startReceive n).output = s.output := rfl
@[simp] theorem State.startReceive_inputs (s : State) (n : Byte) : (s.startReceive n).inputs = s.inputs := rfl
@[simp] theorem State.startReceive_writeAnswers (s : State) (n : Byte) :
    (s.startReceive n).writeAnswers = s.writeAnswers := rfl
@[simp] theorem State.startReceive_readAnswers (s : State) (n : Byte) :
    (s.startReceive n).readAnswers = s.readAnswers := rfl
@[simp] theorem State.startReceive_draws (s : State) (n : Byte) : (s.startReceive n).draws = s.draws := rfl
@[simp] theorem State.startReceive_trace (s : State) (n : Byte) : (s.startReceive n).trace = s.trace := rfl

/-! ### `storeByte` -/

@[simp] theorem State.storeByte_crcReg (s : State) (b : Byte) : (s.storeByte b).crcReg = s.crcReg := rfl
@[simp] theorem State.storeByte_lastCrc (s : State) (b : Byte) : (s.storeByte b).lastCrc = s.lastCrc := rfl
@[simp] theorem State.storeByte_rxbuf (s : State) (b : Byte) :
    (s.storeByte b).rxbuf = if s.hasRoom then s.rxbuf.write s.rxTotal.toNat b else s.rxbuf := rfl
@[simp] theorem State.storeByte_rxTotal (s : State) (b : Byte) :
    (s.storeByte b).rxTotal = if s.rxTotal.toNat < Config.rxTotalMax then s.rxTotal + 1#8 else s.rxTotal := rfl
@[simp] theorem State.storeByte_rxExpected (s : State) (b : Byte) : (s.storeByte b).rxExpected = s.rxExpected := rfl
@[simp] theorem State.storeByte_attempts (s : State) (b : Byte) : (s.storeByte b).attempts = s.attempts := rfl
@[simp] theorem State.storeByte_exhausted (s : State) (b : Byte) : (s.storeByte b).exhausted = s.exhausted := rfl
@[simp] theorem State.storeByte_overflow (s : State) (b : Byte) :
    (s.storeByte b).overflow = if s.hasRoom then s.overflow else true := rfl
@[simp] theorem State.storeByte_ps (s : State) (b : Byte) : (s.storeByte b).ps = s.ps := rfl
@[simp] theorem State.storeByte_err (s : State) (b : Byte) : (s.storeByte b).err = s.err := rfl
@[simp] theorem State.storeByte_devAddr (s : State) (b : Byte) : (s.storeByte b).devAddr = s.devAddr := rfl
@[simp] theorem State.storeByte_txbuf (s : State) (b : Byte) : (s.storeByte b).txbuf = s.txbuf := rfl
@[simp] theorem State.storeByte_txLen (s : State) (b : Byte) : (s.storeByte b).txLen = s.txLen := rfl
@[simp] theorem State.storeByte_cfg (s : State) (b : Byte) : (s.storeByte b).cfg = s.cfg := rfl
@[simp] theorem State.storeByte_output (s : State) (b : Byte) : (s.storeByte b).output = s.output := rfl
@[simp] theorem State.storeByte_inputs (s : State) (b : Byte) : (s.storeByte b).inputs = s.inputs := rfl
@[simp] theorem State.storeByte_writeAnswers (s : State) (b : Byte) :
    (s.storeByte b).writeAnswers = s.writeAnswers := rfl
@[simp] theorem State.storeByte_readAnswers (s : State) (b : Byte) : (s.storeByte b).readAnswers = s.readAnswers := rfl
@[simp] theorem State.storeByte_draws (s : State) (b : Byte) : (s.storeByte b).draws = s.draws := rfl
@[simp] theorem State.storeByte_trace (s : State) (b : Byte) : (s.storeByte b).trace = s.trace := rfl

/-! ### `countAttempt` -/

@[simp] theorem State.countAttempt_crcReg (s : State) : s.countAttempt.crcReg = s.crcReg := rfl
@[simp] theorem State.countAttempt_lastCrc (s : State) : s.countAttempt.lastCrc = s.lastCrc := rfl
@[simp] theorem State.countAttempt_rxbuf (s : State) : s.countAttempt.rxbuf = s.rxbuf := rfl
@[simp] theorem State.countAttempt_rxTotal (s : State) : s.countAttempt.rxTotal = s.rxTotal := rfl
@[simp] theorem State.countAttempt_rxExpected (s : State) : s.countAttempt.rxExpected = s.rxExpected := rfl
@[simp] theorem State.countAttempt_attempts (s : State) : s.countAttempt.attempts = s.attempts + 1#5 := rfl
@[simp] theorem State.countAttempt_exhausted (s : State) : s.countAttempt.exhausted = s.exhausted := rfl
@[simp] theorem State.countAttempt_overflow (s : State) : s.countAttempt.overflow = s.overflow := rfl
@[simp] theorem State.countAttempt_ps (s : State) : s.countAttempt.ps = s.ps := rfl
@[simp] theorem State.countAttempt_err (s : State) : s.countAttempt.err = s.err := rfl
@[simp] theorem State.countAttempt_devAddr (s : State) : s.countAttempt.devAddr = s.devAddr := rfl
@[simp] theorem State.countAttempt_txbuf (s : State) : s.countAttempt.txbuf = s.txbuf := rfl
@[simp] theorem State.countAttempt_txLen (s : State) : s.countAttempt.txLen = s.txLen := rfl
@[simp] theorem State.countAttempt_cfg (s : State) : s.countAttempt.cfg = s.cfg := rfl
@[simp] theorem State.countAttempt_output (s : State) : s.countAttempt.output = s.output := rfl
@[simp] theorem State.countAttempt_inputs (s : State) : s.countAttempt.inputs = s.inputs := rfl
@[simp] theorem State.countAttempt_writeAnswers (s : State) : s.countAttempt.writeAnswers = s.writeAnswers := rfl
@[simp] theorem State.countAttempt_readAnswers (s : State) : s.countAttempt.readAnswers = s.readAnswers := rfl
@[simp] theorem State.countAttempt_draws (s : State) : s.countAttempt.draws = s.draws := rfl
@[simp] theorem State.countAttempt_trace (s : State) : s.countAttempt.trace = s.trace := rfl

/-! ### `noteExhausted` -/

@[simp] theorem State.noteExhausted_crcReg (s : State) : s.noteExhausted.crcReg = s.crcReg := rfl
@[simp] theorem State.noteExhausted_lastCrc (s : State) : s.noteExhausted.lastCrc = s.lastCrc := rfl
@[simp] theorem State.noteExhausted_rxbuf (s : State) : s.noteExhausted.rxbuf = s.rxbuf := rfl
@[simp] theorem State.noteExhausted_rxTotal (s : State) : s.noteExhausted.rxTotal = s.rxTotal := rfl
@[simp] theorem State.noteExhausted_rxExpected (s : State) : s.noteExhausted.rxExpected = s.rxExpected := rfl
@[simp] theorem State.noteExhausted_attempts (s : State) : s.noteExhausted.attempts = s.attempts := rfl
@[simp] theorem State.noteExhausted_exhausted (s : State) : s.noteExhausted.exhausted = s.incomplete := rfl
@[simp] theorem State.noteExhausted_overflow (s : State) : s.noteExhausted.overflow = s.overflow := rfl
@[simp] theorem State.noteExhausted_ps (s : State) : s.noteExhausted.ps = s.ps := rfl
@[simp] theorem State.noteExhausted_err (s : State) : s.noteExhausted.err = s.err := rfl
@[simp] theorem State.noteExhausted_devAddr (s : State) : s.noteExhausted.devAddr = s.devAddr := rfl
@[simp] theorem State.noteExhausted_txbuf (s : State) : s.noteExhausted.txbuf = s.txbuf := rfl
@[simp] theorem State.noteExhausted_txLen (s : State) : s.noteExhausted.txLen = s.txLen := rfl
@[simp] theorem State.noteExhausted_cfg (s : State) : s.noteExhausted.cfg = s.cfg := rfl
@[simp] theorem State.noteExhausted_output (s : State) : s.noteExhausted.output = s.output := rfl
@[simp] theorem State.noteExhausted_inputs (s : State) : s.noteExhausted.inputs = s.inputs := rfl
@[simp] theorem State.noteExhausted_writeAnswers (s : State) : s.noteExhausted.writeAnswers = s.writeAnswers := rfl
@[simp] theorem State.noteExhausted_readAnswers (s : State) : s.noteExhausted.readAnswers = s.readAnswers := rfl
@[simp] theorem State.noteExhausted_draws (s : State) : s.noteExhausted.draws = s.draws := rfl
@[simp] theorem State.noteExhausted_trace (s : State) : s.noteExhausted.trace = s.trace := rfl

/-! ### `dropAck` -/

@[simp] theorem State.dropAck_crcReg (s : State) : s.dropAck.crcReg = s.crcReg := by
  unfold State.dropAck; split <;> simp_all
@[simp] theorem State.dropAck_lastCrc (s : State) : s.dropAck.lastCrc = s.lastCrc := by
  unfold State.dropAck; split <;> simp_all
@[simp] theorem State.dropAck_rxbuf (s : State) : s.dropAck.rxbuf = s.rxbuf := by
  unfold State.dropAck; split <;> simp_all
@[simp] theorem State.dropAck_rxTotal (s : State) : s.dropAck.rxTotal = s.rxTotal := by
  unfold State.dropAck; split <;> simp_all
@[simp] theorem State.dropAck_rxExpected (s : State) : s.dropAck.rxExpected = s.rxExpected := by
  unfold State.dropAck; split <;> simp_all
@[simp] theorem State.dropAck_attempts (s : State) : s.dropAck.attempts = s.attempts := by
  unfold State.dropAck; split <;> simp_all
@[simp] theorem State.dropAck_exhausted (s : State) : s.dropAck.exhausted = s.exhausted := by
  unfold State.dropAck; split <;> simp_all
@[simp] theorem State.dropAck_overflow (s : State) : s.dropAck.overflow = s.overflow := by
  unfold State.dropAck; split <;> simp_all
@[simp] theorem State.dropAck_ps (s : State) : s.dropAck.ps = s.ps := by
  unfold State.dropAck; split <;> simp_all
@[simp] theorem State.dropAck_err (s : State) : s.dropAck.err = s.err := by
  unfold State.dropAck; split <;> simp_all
@[simp] theorem State.dropAck_devAddr (s : State) : s.dropAck.devAddr = s.devAddr := by
  unfold State.dropAck; split <;> simp_all
@[simp] theorem State.dropAck_txbuf (s : State) : s.dropAck.txbuf = s.txbuf := by
  unfold State.dropAck; split <;> simp_all
@[simp] theorem State.dropAck_txLen (s : State) : s.dropAck.txLen = s.txLen := by
  unfold State.dropAck; split <;> simp_all
@[simp] theorem State.dropAck_cfg (s : State) : s.dropAck.cfg = s.cfg := by
  unfold State.dropAck; split <;> simp_all
@[simp] theorem State.dropAck_output (s : State) : s.dropAck.output = s.output := by
  unfold State.dropAck; split <;> simp_all
@[simp] theorem State.dropAck_inputs (s : State) : s.dropAck.inputs = s.inputs := by
  unfold State.dropAck; split <;> simp_all
@[simp] theorem State.dropAck_writeAnswers (s : State) : s.dropAck.writeAnswers = s.writeAnswers.tail := by
  unfold State.dropAck; split <;> simp_all
@[simp] theorem State.dropAck_readAnswers (s : State) : s.dropAck.readAnswers = s.readAnswers := by
  unfold State.dropAck; split <;> simp_all
@[simp] theorem State.dropAck_trace (s : State) : s.dropAck.trace = s.trace := by
  unfold State.dropAck; split <;> simp_all

/-! ### `dropRead` -/

@[simp] theorem State.dropRead_crcReg (s : State) (m : Nat) : (s.dropRead m).crcReg = s.crcReg := by
  unfold State.dropRead; split <;> simp_all
@[simp] theorem State.dropRead_lastCrc (s : State) (m : Nat) : (s.dropRead m).lastCrc = s.lastCrc := by
  unfold State.dropRead; split <;> simp_all
@[simp] theorem State.dropRead_rxbuf (s : State) (m : Nat) : (s.dropRead m).rxbuf = s.rxbuf := by
  unfold State.dropRead; split <;> simp_all
@[simp] theorem State.dropRead_rxTotal (s : State) (m : Nat) : (s.dropRead m).rxTotal = s.rxTotal := by
  unfold State.dropRead; split <;> simp_all
@[simp] theorem State.dropRead_rxExpected (s : State) (m : Nat) : (s.dropRead m).rxExpected = s.rxExpected := by
  unfold State.dropRead; split <;> simp_all
@[simp] theorem State.dropRead_attempts (s : State) (m : Nat) : (s.dropRead m).attempts = s.attempts := by
  unfold State.dropRead; split <;> simp_all
@[simp] theorem State.dropRead_exhausted (s : State) (m : Nat) : (s.dropRead m).exhausted = s.exhausted := by
  unfold State.dropRead; split <;> simp_all
@[simp] theorem State.dropRead_overflow (s : State) (m : Nat) : (s.dropRead m).overflow = s.overflow := by
  unfold State.dropRead; split <;> simp_all
@[simp] theorem State.dropRead_ps (s : State) (m : Nat) : (s.dropRead m).ps = s.ps := by
  unfold State.dropRead; split <;> simp_all
@[simp] theorem State.dropRead_err (s : State) (m : Nat) : (s.dropRead m).err = s.err := by
  unfold State.dropRead; split <;> simp_all
@[simp] theorem State.dropRead_devAddr (s : State) (m : Nat) : (s.dropRead m).devAddr = s.devAddr := by
  unfold State.dropRead; split <;> simp_all
@[simp] theorem State.dropRead_txbuf (s : State) (m : Nat) : (s.dropRead m).txbuf = s.txbuf := by
  unfold State.dropRead; split <;> simp_all
@[simp] theorem State.dropRead_txLen (s : State) (m : Nat) : (s.dropRead m).txLen = s.txLen := by
  unfold State.dropRead; split <;> simp_all
@[simp] theorem State.dropRead_cfg (s : State) (m : Nat) : (s.dropRead m).cfg = s.cfg := by
  unfold State.dropRead; split <;> simp_all
@[simp] theorem State.dropRead_output (s : State) (m : Nat) : (s.dropRead m).output = s.output := by
  unfold State.dropRead; split <;> simp_all
@[simp] theorem State.dropRead_inputs (s : State) (m : Nat) : (s.dropRead m).inputs = s.inputs := by
  unfold State.dropRead; split <;> simp_all
@[simp] theorem State.dropRead_writeAnswers (s : State) (m : Nat) : (s.dropRead m).writeAnswers = s.writeAnswers := by
  unfold State.dropRead; split <;> simp_all
@[simp] theorem State.dropRead_trace (s : State) (m : Nat) : (s.dropRead m).trace = s.trace := by
  unfold State.dropRead; split <;> simp_all

/-! ### Reads through the accessors -/

@[simp] theorem State.finish_readRx (s : State) (r : ResultCode) (o : Output) (i : Nat) : (s.finish r o).readRx i = s.readRx i := by
  simp [State.readRx]
@[simp] theorem State.finish_rxSlice (s : State) (r : ResultCode) (o : Output) (i k : Nat) : (s.finish r o).rxSlice i k = s.rxSlice i k := by
  simp [State.rxSlice]
@[simp] theorem State.finish_readTx (s : State) (r : ResultCode) (o : Output) (i : Nat) : (s.finish r o).readTx i = s.readTx i := by
  simp [State.readTx]
@[simp] theorem State.finish_txSlice (s : State) (r : ResultCode) (o : Output) (i k : Nat) : (s.finish r o).txSlice i k = s.txSlice i k := by
  simp [State.txSlice]
@[simp] theorem State.setPs_readRx (s : State) (p : PowerState) (i : Nat) : (s.setPs p).readRx i = s.readRx i := by
  simp [State.readRx]
@[simp] theorem State.setPs_rxSlice (s : State) (p : PowerState) (i k : Nat) : (s.setPs p).rxSlice i k = s.rxSlice i k := by
  simp [State.rxSlice]
@[simp] theorem State.setPs_readTx (s : State) (p : PowerState) (i : Nat) : (s.setPs p).readTx i = s.readTx i := by
  simp [State.readTx]
@[simp] theorem State.setPs_txSlice (s : State) (p : PowerState) (i k : Nat) : (s.setPs p).txSlice i k = s.txSlice i k := by
  simp [State.txSlice]
@[simp] theorem State.setCrc_readRx (s : State) (r : Half) (i : Nat) : (s.setCrc r).readRx i = s.readRx i := by
  simp [State.readRx]
@[simp] theorem State.setCrc_rxSlice (s : State) (r : Half) (i k : Nat) : (s.setCrc r).rxSlice i k = s.rxSlice i k := by
  simp [State.rxSlice]
@[simp] theorem State.setCrc_readTx (s : State) (r : Half) (i : Nat) : (s.setCrc r).readTx i = s.readTx i := by
  simp [State.readTx]
@[simp] theorem State.setCrc_txSlice (s : State) (r : Half) (i k : Nat) : (s.setCrc r).txSlice i k = s.txSlice i k := by
  simp [State.txSlice]
@[simp] theorem State.setCodecCrc_readRx (s : State) (r : Half) (i : Nat) : (s.setCodecCrc r).readRx i = s.readRx i := by
  simp [State.readRx]
@[simp] theorem State.setCodecCrc_rxSlice (s : State) (r : Half) (i k : Nat) : (s.setCodecCrc r).rxSlice i k = s.rxSlice i k := by
  simp [State.rxSlice]
@[simp] theorem State.setCodecCrc_readTx (s : State) (r : Half) (i : Nat) : (s.setCodecCrc r).readTx i = s.readTx i := by
  simp [State.readTx]
@[simp] theorem State.setCodecCrc_txSlice (s : State) (r : Half) (i k : Nat) : (s.setCodecCrc r).txSlice i k = s.txSlice i k := by
  simp [State.txSlice]
@[simp] theorem State.logEvent_readRx (s : State) (e : Event) (i : Nat) : (s.logEvent e).readRx i = s.readRx i := by
  simp [State.readRx]
@[simp] theorem State.logEvent_rxSlice (s : State) (e : Event) (i k : Nat) : (s.logEvent e).rxSlice i k = s.rxSlice i k := by
  simp [State.rxSlice]
@[simp] theorem State.logEvent_readTx (s : State) (e : Event) (i : Nat) : (s.logEvent e).readTx i = s.readTx i := by
  simp [State.readTx]
@[simp] theorem State.logEvent_txSlice (s : State) (e : Event) (i k : Nat) : (s.logEvent e).txSlice i k = s.txSlice i k := by
  simp [State.txSlice]
@[simp] theorem State.trDelay_readRx (s : State) (n : Nat) (i : Nat) : (s.trDelay n).readRx i = s.readRx i := by
  simp [State.readRx]
@[simp] theorem State.trDelay_rxSlice (s : State) (n : Nat) (i k : Nat) : (s.trDelay n).rxSlice i k = s.rxSlice i k := by
  simp [State.rxSlice]
@[simp] theorem State.trDelay_readTx (s : State) (n : Nat) (i : Nat) : (s.trDelay n).readTx i = s.readTx i := by
  simp [State.readTx]
@[simp] theorem State.trDelay_txSlice (s : State) (n : Nat) (i k : Nat) : (s.trDelay n).txSlice i k = s.txSlice i k := by
  simp [State.txSlice]
@[simp] theorem State.offerFrame_readRx (s : State) (c : List Byte) (i : Nat) : (s.offerFrame c).readRx i = s.readRx i := by
  simp [State.readRx]
@[simp] theorem State.offerFrame_rxSlice (s : State) (c : List Byte) (i k : Nat) : (s.offerFrame c).rxSlice i k = s.rxSlice i k := by
  simp [State.rxSlice]
@[simp] theorem State.offerFrame_readTx (s : State) (c : List Byte) (i : Nat) : (s.offerFrame c).readTx i = s.readTx i := by
  simp [State.readTx]
@[simp] theorem State.offerFrame_txSlice (s : State) (c : List Byte) (i k : Nat) : (s.offerFrame c).txSlice i k = s.txSlice i k := by
  simp [State.txSlice]
@[simp] theorem State.putFrame_readRx (s : State) (c : List Byte) (i : Nat) : (s.putFrame c).readRx i = s.readRx i := by
  simp [State.readRx]
@[simp] theorem State.putFrame_rxSlice (s : State) (c : List Byte) (i k : Nat) : (s.putFrame c).rxSlice i k = s.rxSlice i k := by
  simp [State.rxSlice]
@[simp] theorem State.dropFrame_readRx (s : State) (i : Nat) : s.dropFrame.readRx i = s.readRx i := by
  simp [State.readRx]
@[simp] theorem State.dropFrame_rxSlice (s : State) (i k : Nat) : s.dropFrame.rxSlice i k = s.rxSlice i k := by
  simp [State.rxSlice]
@[simp] theorem State.dropFrame_readTx (s : State) (i : Nat) : s.dropFrame.readTx i = s.readTx i := by
  simp [State.readTx]
@[simp] theorem State.dropFrame_txSlice (s : State) (i k : Nat) : s.dropFrame.txSlice i k = s.txSlice i k := by
  simp [State.txSlice]
@[simp] theorem State.startReceive_readTx (s : State) (n : Byte) (i : Nat) : (s.startReceive n).readTx i = s.readTx i := by
  simp [State.readTx]
@[simp] theorem State.startReceive_txSlice (s : State) (n : Byte) (i k : Nat) : (s.startReceive n).txSlice i k = s.txSlice i k := by
  simp [State.txSlice]
@[simp] theorem State.storeByte_readTx (s : State) (b : Byte) (i : Nat) : (s.storeByte b).readTx i = s.readTx i := by
  simp [State.readTx]
@[simp] theorem State.storeByte_txSlice (s : State) (b : Byte) (i k : Nat) : (s.storeByte b).txSlice i k = s.txSlice i k := by
  simp [State.txSlice]
@[simp] theorem State.countAttempt_readRx (s : State) (i : Nat) : s.countAttempt.readRx i = s.readRx i := by
  simp [State.readRx]
@[simp] theorem State.countAttempt_rxSlice (s : State) (i k : Nat) : s.countAttempt.rxSlice i k = s.rxSlice i k := by
  simp [State.rxSlice]
@[simp] theorem State.countAttempt_readTx (s : State) (i : Nat) : s.countAttempt.readTx i = s.readTx i := by
  simp [State.readTx]
@[simp] theorem State.countAttempt_txSlice (s : State) (i k : Nat) : s.countAttempt.txSlice i k = s.txSlice i k := by
  simp [State.txSlice]
@[simp] theorem State.noteExhausted_readRx (s : State) (i : Nat) : s.noteExhausted.readRx i = s.readRx i := by
  simp [State.readRx]
@[simp] theorem State.noteExhausted_rxSlice (s : State) (i k : Nat) : s.noteExhausted.rxSlice i k = s.rxSlice i k := by
  simp [State.rxSlice]
@[simp] theorem State.noteExhausted_readTx (s : State) (i : Nat) : s.noteExhausted.readTx i = s.readTx i := by
  simp [State.readTx]
@[simp] theorem State.noteExhausted_txSlice (s : State) (i k : Nat) : s.noteExhausted.txSlice i k = s.txSlice i k := by
  simp [State.txSlice]
@[simp] theorem State.dropAck_readRx (s : State) (i : Nat) : s.dropAck.readRx i = s.readRx i := by
  simp [State.readRx]
@[simp] theorem State.dropAck_rxSlice (s : State) (i k : Nat) : s.dropAck.rxSlice i k = s.rxSlice i k := by
  simp [State.rxSlice]
@[simp] theorem State.dropAck_readTx (s : State) (i : Nat) : s.dropAck.readTx i = s.readTx i := by
  simp [State.readTx]
@[simp] theorem State.dropAck_txSlice (s : State) (i k : Nat) : s.dropAck.txSlice i k = s.txSlice i k := by
  simp [State.txSlice]
@[simp] theorem State.dropRead_readRx (s : State) (m : Nat) (i : Nat) : (s.dropRead m).readRx i = s.readRx i := by
  simp [State.readRx]
@[simp] theorem State.dropRead_rxSlice (s : State) (m : Nat) (i k : Nat) : (s.dropRead m).rxSlice i k = s.rxSlice i k := by
  simp [State.rxSlice]
@[simp] theorem State.dropRead_readTx (s : State) (m : Nat) (i : Nat) : (s.dropRead m).readTx i = s.readTx i := by
  simp [State.readTx]
@[simp] theorem State.dropRead_txSlice (s : State) (m : Nat) (i k : Nat) : (s.dropRead m).txSlice i k = s.txSlice i k := by
  simp [State.txSlice]

/-- States with the same reassembly buffer read the same bytes. -/
theorem State.readRx_congr {s t : State} (h : s.rxbuf = t.rxbuf) (i : Nat) : s.readRx i = t.readRx i := by
  simp [State.readRx, h]

end Sys2Proof.Machine
end

