-- ==== Sys2Proof/Laws/Memory.lean ====
section
/-! SUPPORT. The buffers: what a write changes and what it leaves, and that every operation keeps the canonical form. -/

namespace Sys2Proof.Machine

theorem Memory.find_write (m : Memory) (i j : Nat) (b : Byte) :
    (m.write i b).find j = if i = j then some b else m.find j := by
  induction m with
  | nil => simp [Memory.write, Memory.find]
  | cons c m ih =>
    by_cases h1 : i < c.1
    · simp [Memory.write, Memory.find, h1]
    · by_cases h2 : i = c.1
      · subst h2; simp [Memory.write, Memory.find]; split <;> simp_all
      · simp only [Memory.write, if_neg h1, if_neg h2, Memory.find, ih]
        split <;> split <;> simp_all

@[simp] theorem Memory.find_write_same (m : Memory) (i : Nat) (b : Byte) : (m.write i b).find i = some b := by
  simp [Memory.find_write]

theorem Memory.find_write_other (m : Memory) {i j : Nat} (b : Byte) (h : i ≠ j) : (m.write i b).find j = m.find j := by
  simp [Memory.find_write, h]

theorem Memory.find_writeList (m : Memory) (i j : Nat) (bs : List Byte) :
    (m.writeList i bs).find j = if i ≤ j ∧ j < i + bs.length then bs[j - i]? else m.find j := by
  induction bs generalizing m i with
  | nil => simp only [Memory.writeList, List.length_nil]; rw [if_neg (by omega)]
  | cons b bs ih =>
    simp only [Memory.writeList, ih, List.length_cons, Memory.find_write]
    by_cases h : i = j
    · subst h; rw [if_neg (by omega)]; simp
    · by_cases h1 : i + 1 ≤ j ∧ j < i + 1 + bs.length
      · rw [if_pos h1, if_pos (by omega)]
        obtain ⟨k, rfl⟩ : ∃ k, j = i + 1 + k := ⟨j - (i + 1), by omega⟩
        have e1 : i + 1 + k - (i + 1) = k := by omega
        have e2 : i + 1 + k - i = k + 1 := by omega
        simp [e1, e2]
      · rw [if_neg h1, if_neg h, if_neg (by omega)]

theorem Memory.find_fill (n i : Nat) (b : Byte) : (Memory.fill n b).find i = if i < n then some b else none := by
  have key : ∀ (l : List Nat), Memory.find (l.map fun i => (i, b)) i = if i ∈ l then some b else none := by
    intro l
    induction l with
    | nil => simp [Memory.find]
    | cons a l ih =>
      simp only [List.map_cons, Memory.find, ih, List.mem_cons]
      by_cases h : a = i
      · simp [h]
      · have : ¬ i = a := fun e => h e.symm
        simp [h, this]
  simp [Memory.fill, key]

/-- A buffer given by a function on its indices. -/
theorem Memory.find_map_range (n i : Nat) (f : Nat → Byte) :
    Memory.find ((List.range n).map fun k => (k, f k)) i = if i < n then some (f i) else none := by
  have key : ∀ (l : List Nat), Memory.find (l.map fun k => (k, f k)) i = if i ∈ l then some (f i) else none := by
    intro l
    induction l with
    | nil => simp [Memory.find]
    | cons a l ih =>
      simp only [List.map_cons, Memory.find, ih, List.mem_cons]
      by_cases h : a = i
      · simp [h]
      · have : ¬ i = a := fun e => h e.symm
        simp [h, this]
  simp [key]

/-- An index below every listed one holds nothing. -/
theorem Memory.find_none_of_lt {m : Memory} {i : Nat} (h : ∀ c ∈ m, i < c.1) : m.find i = none := by
  induction m with
  | nil => rfl
  | cons c m ih =>
    have hc := h c (by simp)
    have : ¬ c.1 = i := by omega
    simp [Memory.find, this, ih fun d hd => h d (by simp [hd])]

theorem Memory.mem_write {m : Memory} {i : Nat} {b : Byte} {d : Host.Cell} (h : d ∈ m.write i b) :
    d = (i, b) ∨ d ∈ m := by
  induction m with
  | nil => simp_all [Memory.write]
  | cons c m ih =>
    unfold Memory.write at h
    split at h
    · simpa using h
    · split at h
      · rcases List.mem_cons.1 h with h | h
        · exact .inl h
        · exact .inr (by simp [h])
      · rcases List.mem_cons.1 h with h | h
        · exact .inr (by simp [h])
        · rcases ih h with h | h
          · exact .inl h
          · exact .inr (by simp [h])

/-- A write of an existing index keeps the canonical form. -/
theorem Memory.write_wf {cap : Nat} {m : Memory} {i : Nat} (b : Byte) (h : Memory.wf cap m) (hi : i < cap) :
    Memory.wf cap (m.write i b) := by
  refine ⟨?_, fun d hd => ?_⟩
  · have hp := h.1
    clear h
    induction m with
    | nil => simp [Memory.write]
    | cons c m ih =>
      rw [List.pairwise_cons] at hp
      unfold Memory.write
      split
      · rename_i hlt
        refine List.pairwise_cons.2 ⟨fun d hd => ?_, List.pairwise_cons.2 hp⟩
        rcases List.mem_cons.1 hd with rfl | hd
        · exact hlt
        · have := hp.1 d hd; omega
      · split
        · rename_i heq
          exact List.pairwise_cons.2 ⟨fun d hd => by have := hp.1 d hd; omega, hp.2⟩
        · refine List.pairwise_cons.2 ⟨fun d hd => ?_, ih hp.2⟩
          rcases Memory.mem_write hd with rfl | hd
          · omega
          · exact hp.1 d hd
  · rcases Memory.mem_write hd with rfl | hd
    · exact hi
    · exact h.2 d hd

theorem Memory.writeList_wf {cap : Nat} {m : Memory} {i : Nat} {bs : List Byte} (h : Memory.wf cap m)
    (hi : i + bs.length ≤ cap) : Memory.wf cap (m.writeList i bs) := by
  induction bs generalizing m i with
  | nil => exact h
  | cons b bs ih =>
    simp only [List.length_cons] at hi
    exact ih (Memory.write_wf b h (by omega)) (by omega)

theorem Memory.fill_wf (n : Nat) (b : Byte) : Memory.wf n (Memory.fill n b) := by
  refine ⟨?_, fun c hc => ?_⟩
  · simp only [Memory.fill, List.pairwise_map]
    exact List.pairwise_lt_range
  · simp only [Memory.fill, List.mem_map, List.mem_range] at hc
    obtain ⟨i, hi, rfl⟩ := hc
    exact hi

theorem Memory.nil_wf (cap : Nat) : Memory.wf cap [] :=
  ⟨List.Pairwise.nil, fun _ h => nomatch h⟩

/-! ### Reads of a slice -/

@[simp] theorem State.rxSlice_length (s : State) (i n : Nat) : (s.rxSlice i n).length = n := by simp [State.rxSlice]
@[simp] theorem State.txSlice_length (s : State) (i n : Nat) : (s.txSlice i n).length = n := by simp [State.txSlice]

theorem State.rxSlice_congr {s t : State} (h : s.rxbuf = t.rxbuf) (i n : Nat) : s.rxSlice i n = t.rxSlice i n := by
  simp [State.rxSlice, State.readRx, h]

theorem State.txSlice_congr {s t : State} (h : s.txbuf = t.txbuf) (i n : Nat) : s.txSlice i n = t.txSlice i n := by
  simp [State.txSlice, State.readTx, h]

theorem State.rxSlice_getElem? (s : State) (i n k : Nat) (h : k < n) : (s.rxSlice i n)[k]? = some (s.readRx (i + k)) := by
  simp [State.rxSlice, h]

theorem State.txSlice_getElem? (s : State) (i n k : Nat) (h : k < n) : (s.txSlice i n)[k]? = some (s.readTx (i + k)) := by
  simp [State.txSlice, h]

/-- A slice of `txbuf` just written from index 0 on is what was written. -/
theorem State.txSlice_of_writeList {s t : State} {bs : List Byte} (h : s.txbuf = t.txbuf.writeList 0 bs) :
    s.txSlice 0 bs.length = bs := by
  apply List.ext_getElem?
  intro k
  by_cases hk : k < bs.length
  · rw [State.txSlice_getElem? _ _ _ _ hk]
    simp [State.readTx, h, Memory.find_writeList, hk]
  · simp [State.txSlice, hk]

/-- A slice of `rxbuf` whose bytes are known one by one. -/
theorem State.rxSlice_eq {s : State} {i : Nat} {bs : List Byte}
    (h : ∀ k, (hk : k < bs.length) → s.rxbuf.find (i + k) = some bs[k]) : s.rxSlice i bs.length = bs := by
  apply List.ext_getElem?
  intro k
  by_cases hk : k < bs.length
  · rw [State.rxSlice_getElem? _ _ _ _ hk]
    simp [State.readRx, h k hk, hk]
  · simp [State.rxSlice, hk]

end Sys2Proof.Machine
end

