-- ==== Sys2Proof/Laws/Codec.lean ====
section
/-! SUPPORT. The codec and the endings of the operations: what ENCODE leaves in `txbuf`, the three endings of the decode
steps, and the transport's write as two cases. Callers cite these and unfold none of it. -/

namespace Sys2Proof.Machine

/-! ### ENCODE -/

theorem runEncode_large {s : State} {data : List Byte} (opcode param1 : Byte) (param2 : Half)
    (h : s.cfg.maxTransfer.toNat < Config.overhead + data.length) :
    runEncode opcode param1 param2 data s = s.dropFrame.raiseError .payloadTooLarge := if_pos h

theorem runEncode_fits {s : State} {data : List Byte} (opcode param1 : Byte) (param2 : Half)
    (h : Config.overhead + data.length ≤ s.cfg.maxTransfer.toNat) :
    runEncode opcode param1 param2 data s =
      ((s.putFrame (outFrameBytes s.cfg.pfxCommand opcode param1 param2 data)).setCodecCrc
        (crcRegOf (outBody opcode param1 param2 data))).complete .none := if_neg (Nat.not_lt.2 h)

/-- A byte of `txbuf` after a frame was put there: the frame's byte, or the old one above the frame (R140). -/
theorem State.putFrame_readTx (s : State) (f : List Byte) (k : Nat) :
    (s.putFrame f).readTx k = if h : k < f.length then f[k] else s.readTx k := by
  simp only [State.readTx, State.putFrame_txbuf, Memory.find_writeList]
  by_cases h : k < f.length <;> simp [h]

theorem State.putFrame_readTx_in (s : State) {f : List Byte} {k : Nat} (h : k < f.length) :
    (s.putFrame f).readTx k = f[k] := by rw [State.putFrame_readTx, dif_pos h]

theorem State.putFrame_readTx_above (s : State) {f : List Byte} {k : Nat} (h : f.length ≤ k) :
    (s.putFrame f).readTx k = s.readTx k := by rw [State.putFrame_readTx, dif_neg (Nat.not_lt.2 h)]

/-- A slice of the frame just put in `txbuf`. -/
theorem State.putFrame_txSlice (s : State) (f : List Byte) (i n : Nat) (h : i + n ≤ f.length) :
    (s.putFrame f).txSlice i n = (f.drop i).take n := by
  apply List.ext_getElem?
  intro k
  by_cases hk : k < n
  · rw [State.txSlice_getElem? _ _ _ _ hk, State.putFrame_readTx_in s (by omega : i + k < f.length)]
    simp [hk, List.getElem?_eq_getElem (by omega : i + k < f.length)]
  · simp [State.txSlice, hk]

/-- A slice of a slice of `rxbuf`. -/
theorem State.rxSlice_sub (s : State) {m : Nat} (i n : Nat) (h : i + n ≤ m) :
    s.rxSlice i n = ((s.rxSlice 0 m).drop i).take n := by
  apply List.ext_getElem?
  intro k
  by_cases hk : k < n
  · rw [State.rxSlice_getElem? _ _ _ _ hk]
    simp only [List.getElem?_take, hk, if_true, List.getElem?_drop]
    rw [State.rxSlice_getElem? _ _ _ _ (by omega)]; simp
  · simp [State.rxSlice, hk]

/-! ### DECODE -/

theorem State.countFails_iff (s : State) :
    s.countFails = true ↔ s.rxTotal.toNat < 3 ∨ 128 < s.rxTotal.toNat ∨ (s.readRx 0).toNat ≠ s.rxTotal.toNat := by
  have : (s.readRx 0 ≠ s.rxTotal) ↔ (s.readRx 0).toNat ≠ s.rxTotal.toNat := by rw [ne_eq, ne_eq, BitVec.toNat_inj]
  simp only [State.countFails, Bool.or_eq_true, decide_eq_true_eq, this, or_assoc]

theorem State.crcFails_iff (s : State) (h : 3 ≤ s.rxTotal.toNat) :
    s.crcFails = true ↔ s.readRx (s.rxTotal.toNat - 2) ≠ (crcPair s.rxCrc).lo ∨
      s.readRx (s.rxTotal.toNat - 1) ≠ (crcPair s.rxCrc).hi := by
  have e : s.rxTotal.toNat - 2 + 1 = s.rxTotal.toNat - 1 := by omega
  have hs : s.rxSlice (s.rxTotal.toNat - 2) 2 =
      [s.readRx (s.rxTotal.toNat - 2), s.readRx (s.rxTotal.toNat - 1)] := by
    simp [State.rxSlice, List.range_succ, e]
  simp only [State.crcFails, decide_eq_true_eq, hs, CrcPair.bytes, ne_eq, List.cons.injEq, and_true]
  tauto

/-- The decode steps look at `rxbuf` and `rx_total` alone. -/
theorem State.decode_reads {s t : State} (h : t.rxbuf = s.rxbuf) (h2 : t.rxTotal = s.rxTotal) :
    t.countFails = s.countFails ∧ t.crcFails = s.crcFails ∧ t.rxCrc = s.rxCrc ∧ t.rxPayload = s.rxPayload := by
  have hr : ∀ k, t.readRx k = s.readRx k := State.readRx_congr h
  have hs : ∀ i n, t.rxSlice i n = s.rxSlice i n := State.rxSlice_congr h
  refine ⟨?_, ?_, ?_, ?_⟩
  · simp only [State.countFails, hr, h2]
  · unfold State.crcFails State.rxCrc; rw [h2, hs, hs]
  · simp only [State.rxCrc, hs, h2]
  · simp only [State.rxPayload, hs, h2]

theorem runDecode_count {s : State} (h : s.countFails = true) : runDecode s = s.raiseError .countMismatch := by
  simp [runDecode, State.decodeSteps, h]

theorem runDecode_crc {s : State} (h : s.countFails = false) (h2 : s.crcFails = true) :
    runDecode s = (s.setCodecCrc s.rxCrc).raiseError .crcMismatch := by
  simp [runDecode, State.decodeSteps, h, h2]

theorem runDecode_ok {s : State} (h : s.countFails = false) (h2 : s.crcFails = false) :
    runDecode s = (s.setCodecCrc s.rxCrc).complete (.payload s.rxPayload) := by
  simp only [runDecode, State.decodeSteps, h, h2, Bool.false_eq_true, if_false]
  rw [(State.decode_reads (s := s) (t := s.setCodecCrc s.rxCrc) rfl rfl).2.2.2]

/-! ### The transport's write -/

theorem runTransmit_ok {s : State} (h : s.nextAck = .ok) :
    runTransmit s = ((s.dropAck.logEvent (.wr s.devAddr (s.txSlice 0 s.txLen.toNat) .ok)).setPs .awaitingResponse).complete
      .none := by simp only [runTransmit, State.trWrite, h]

theorem runTransmit_err {s : State} (h : s.nextAck = .err) :
    runTransmit s = (s.dropAck.logEvent (.wr s.devAddr (s.txSlice 0 s.txLen.toNat) .err)).raiseError .busError := by
  simp only [runTransmit, State.trWrite, h]

theorem runIdle_ok {s : State} (h : s.nextAck = .ok) :
    runIdle s = ((s.dropAck.logEvent (.wr s.devAddr [s.cfg.pfxIdle] .ok)).setPs .idle).complete .none := by
  simp only [runIdle, State.trWrite, h]

theorem runIdle_err {s : State} (h : s.nextAck = .err) :
    runIdle s = (s.dropAck.logEvent (.wr s.devAddr [s.cfg.pfxIdle] .err)).raiseError .busError := by
  simp only [runIdle, State.trWrite, h]

/-- The answer of a write depends on the environment's script and on the count of free answers alone. -/
theorem State.nextAck_congr {s t : State} (h : s.writeAnswers = t.writeAnswers) (h2 : s.draws = t.draws) :
    s.nextAck = t.nextAck := by simp only [State.nextAck, h, h2]

theorem State.nextAck_cons {s : State} {a : Ack} {as : List Ack} (h : s.writeAnswers = a :: as) : s.nextAck = a := by
  simp only [State.nextAck, h]

theorem runSleep_err {s : State} (h : s.nextAck = .err) :
    runSleep s = (s.dropAck.logEvent (.wr s.devAddr [s.cfg.pfxIdle] .err)).raiseError .busError := by
  simp only [runSleep, State.trWrite, h]

theorem runSleep_ok_ok {s : State} (h : s.nextAck = .ok) (h2 : s.dropAck.nextAck = .ok) :
    runSleep s = (((((s.dropAck.logEvent (.wr s.devAddr [s.cfg.pfxIdle] .ok)).setPs .idle).dropAck).logEvent
      (.wr s.devAddr [s.cfg.pfxSleep] .ok)).setPs .sleeping).complete .none := by
  have h3 : ((s.dropAck.logEvent (.wr s.devAddr [s.cfg.pfxIdle] .ok)).setPs .idle).nextAck = .ok :=
    (State.nextAck_congr rfl rfl).trans h2
  simp only [runSleep, State.trWrite, h, State.sendSleep, h3]
  simp

theorem runSleep_ok_err {s : State} (h : s.nextAck = .ok) (h2 : s.dropAck.nextAck = .err) :
    runSleep s = ((((s.dropAck.logEvent (.wr s.devAddr [s.cfg.pfxIdle] .ok)).setPs .idle).dropAck).logEvent
      (.wr s.devAddr [s.cfg.pfxSleep] .err)).raiseError .busError := by
  have h3 : ((s.dropAck.logEvent (.wr s.devAddr [s.cfg.pfxIdle] .ok)).setPs .idle).nextAck = .err :=
    (State.nextAck_congr rfl rfl).trans h2
  simp only [runSleep, State.trWrite, h, State.sendSleep, h3]
  simp

/-! ### Each operation as its cases -/

theorem runEncode_cases (opcode param1 : Byte) (param2 : Half) (data : List Byte) (s : State) :
    (s.cfg.maxTransfer.toNat < Config.overhead + data.length ∧
      runEncode opcode param1 param2 data s = s.dropFrame.finish .payloadTooLarge .none) ∨
    (Config.overhead + data.length ≤ s.cfg.maxTransfer.toNat ∧ runEncode opcode param1 param2 data s =
      ((s.putFrame (outFrameBytes s.cfg.pfxCommand opcode param1 param2 data)).setCodecCrc
        (crcRegOf (outBody opcode param1 param2 data))).finish .ok .none) := by
  by_cases h : s.cfg.maxTransfer.toNat < Config.overhead + data.length
  · exact .inl ⟨h, runEncode_large opcode param1 param2 h⟩
  · exact .inr ⟨by omega, runEncode_fits opcode param1 param2 (by omega)⟩

theorem runDecode_cases (s : State) :
    (s.countFails = true ∧ runDecode s = s.finish .countMismatch .none) ∨
    (s.countFails = false ∧ s.crcFails = true ∧ runDecode s = (s.setCodecCrc s.rxCrc).finish .crcMismatch .none) ∨
    (s.countFails = false ∧ s.crcFails = false ∧
      runDecode s = (s.setCodecCrc s.rxCrc).finish .ok (.payload s.rxPayload)) := by
  cases h : s.countFails
  · cases h2 : s.crcFails
    · exact .inr (.inr ⟨rfl, rfl, runDecode_ok h h2⟩)
    · exact .inr (.inl ⟨rfl, rfl, runDecode_crc h h2⟩)
  · exact .inl ⟨rfl, runDecode_count h⟩

theorem runTransmit_cases (s : State) :
    (s.nextAck = .ok ∧ runTransmit s =
      ((s.dropAck.logEvent (.wr s.devAddr (s.txSlice 0 s.txLen.toNat) .ok)).setPs .awaitingResponse).finish .ok .none) ∨
    (s.nextAck = .err ∧ runTransmit s =
      (s.dropAck.logEvent (.wr s.devAddr (s.txSlice 0 s.txLen.toNat) .err)).finish .busError .none) := by
  cases h : s.nextAck
  · exact .inl ⟨rfl, runTransmit_ok h⟩
  · exact .inr ⟨rfl, runTransmit_err h⟩

theorem runIdle_cases (s : State) :
    (s.nextAck = .ok ∧ runIdle s =
      ((s.dropAck.logEvent (.wr s.devAddr [s.cfg.pfxIdle] .ok)).setPs .idle).finish .ok .none) ∨
    (s.nextAck = .err ∧ runIdle s =
      (s.dropAck.logEvent (.wr s.devAddr [s.cfg.pfxIdle] .err)).finish .busError .none) := by
  cases h : s.nextAck
  · exact .inl ⟨rfl, runIdle_ok h⟩
  · exact .inr ⟨rfl, runIdle_err h⟩

theorem runSleep_cases (s : State) :
    (s.nextAck = .err ∧ runSleep s =
      (s.dropAck.logEvent (.wr s.devAddr [s.cfg.pfxIdle] .err)).finish .busError .none) ∨
    (s.nextAck = .ok ∧ s.dropAck.nextAck = .ok ∧ runSleep s =
      (((((s.dropAck.logEvent (.wr s.devAddr [s.cfg.pfxIdle] .ok)).setPs .idle).dropAck).logEvent
        (.wr s.devAddr [s.cfg.pfxSleep] .ok)).setPs .sleeping).finish .ok .none) ∨
    (s.nextAck = .ok ∧ s.dropAck.nextAck = .err ∧ runSleep s =
      ((((s.dropAck.logEvent (.wr s.devAddr [s.cfg.pfxIdle] .ok)).setPs .idle).dropAck).logEvent
        (.wr s.devAddr [s.cfg.pfxSleep] .err)).finish .busError .none) := by
  cases h : s.nextAck
  · cases h2 : s.dropAck.nextAck
    · exact .inr (.inl ⟨rfl, rfl, runSleep_ok_ok h h2⟩)
    · exact .inr (.inr ⟨rfl, rfl, runSleep_ok_err h h2⟩)
  · exact .inl ⟨rfl, runSleep_err h⟩

end Sys2Proof.Machine
end

