-- ==== Sys2Proof/Laws/Config.lean ====
section
/-! SUPPORT. The parameters the block is constructed with are legal whatever the free constants are. -/

namespace Sys2Proof

theorem idleOffset_range : 1 ≤ Config.idleOffset ∧ Config.idleOffset ≤ 255 := by unfold Config.idleOffset; omega

theorem sleepOffset_range :
    1 ≤ Config.sleepOffset ∧ Config.sleepOffset ≤ 255 ∧ Config.sleepOffset ≠ Config.idleOffset := by
  have h := idleOffset_range
  unfold Config.sleepOffset
  split <;> omega

theorem add_ofNat_injective {b : Byte} {m n : Nat} (hm : m < 256) (hn : n < 256)
    (h : b + BitVec.ofNat 8 m = b + BitVec.ofNat 8 n) : m = n := by
  have := congrArg BitVec.toNat h
  simp only [BitVec.toNat_add, BitVec.toNat_ofNat] at this
  have := b.isLt
  omega

/-- R12: the prefixes are pairwise distinct and 7 ≤ MAX_TRANSFER. -/
theorem params_legal : Config.params.Legal := by
  have hi := idleOffset_range
  have hs := sleepOffset_range
  have zero : ∀ b : Byte, b = b + BitVec.ofNat 8 0 := fun b => by simp
  refine ⟨fun h => ?_, fun h => ?_, fun h => ?_, ?_⟩
  · have := add_ofNat_injective (by omega) (by omega) ((zero _).symm.trans h); omega
  · have := add_ofNat_injective (by omega) (by omega) ((zero _).symm.trans h); omega
  · exact hs.2.2 (add_ofNat_injective (by omega) (by omega) h).symm
  · simp only [Config.params, Config.overhead, BitVec.toNat_ofNat]; omega

end Sys2Proof
end

