-- ==== Sys2Proof/Laws/Decode.lean ====
section
/-! SUPPORT. The decoder of the host port: operation numbers and operations correspond one to one, and what a record of
fields decodes to is well formed and encodes to that record. -/

namespace Sys2Proof

open Sys2Proof.Machine

theorem operation_number_injective {o q : Operation} (h : o.number = q.number) : o = q := by
  cases o <;> cases q <;> first | rfl | exact absurd h (by decide)

@[simp] theorem operationOf_number (o : Operation) : operationOf o.number = some o := by cases o <;> rfl

theorem operationOf_some {op : Byte} {o : Operation} (h : operationOf op = some o) : op = o.number := by
  have := List.find?_some h
  simpa using (of_decide_eq_true this).symm

/-- An operation number is unassigned exactly when it is none of the eleven of R80 (R82). -/
theorem operationOf_none {op : Byte} (h : ∀ o : Operation, op ≠ o.number) : operationOf op = none := by
  cases e : operationOf op with
  | none => rfl
  | some o => exact absurd (operationOf_some e) (h o)

@[simp] theorem decodeRequest_number (o : Operation) (f : RequestFields) :
    decodeRequest ⟨o.number, f⟩ = decodeFields o f := by simp [decodeRequest]

theorem decodeFields_ok {o : Operation} {f : RequestFields} {i : Instr} (p : Params) (dev : BusAddr)
    (h : decodeFields o f = .ok i) : i.wf p = true ∧ encode p dev i = .request ⟨o.number, f⟩ := by
  cases o <;> cases f <;> simp only [decodeFields] at h <;> first
    | (obtain rfl := Except.ok.inj h; exact ⟨rfl, rfl⟩)
    | (split at h
       · rename_i hl
         have := BitVec.isLt ‹Half›
         obtain rfl := Except.ok.inj h
         exact ⟨by simp only [Instr.wf, decide_eq_true_eq]; omega,
           by rw [encode, hl, BitVec.ofNat_toNat, BitVec.setWidth_eq]; rfl⟩
       · exact nomatch h)
    | exact nomatch h

/-- The number of bytes of a sequence survives its 16-bit `len` field (R81). -/
theorem len_toNat {data : List Byte} (h : data.length < 65536) : (BitVec.ofNat 16 data.length).toNat = data.length := by
  simp only [BitVec.toNat_ofNat]; omega

theorem decode_crc16 (p : Params) (dev : BusAddr) {len : Half} {data : List Byte} (h : data.length = len.toNat) :
    decode p dev (.request ⟨0x13#8, .f3 len data⟩) = .ok (.crc16 data) := by
  have : decodeFields .crc16 (.f3 len data) = .ok (.crc16 data) := if_pos h
  rw [← this]; rfl

theorem decode_encode (p : Params) (dev : BusAddr) {len : Half} {data : List Byte} (opcode param1 : Byte) (param2 : Half)
    (h : data.length = len.toNat) : decode p dev (.request ⟨0x30#8, .f4 opcode param1 param2 len data⟩) =
      .ok (.encode opcode param1 param2 data) := by
  have : decodeFields .encode (.f4 opcode param1 param2 len data) = .ok (.encode opcode param1 param2 data) := if_pos h
  rw [← this]; rfl

end Sys2Proof
end

