-- ==== Sys2Proof/Laws/Device.lean ====
section
/-! SUPPORT. The judgement of the host's duties along a trace, and the device states it allows. -/

namespace Sys2Proof.Machine

@[simp] theorem Watch.judge_broken (w : Watch) (kept : Bool) : (w.judge kept).broken = (w.broken || !kept) := rfl
@[simp] theorem Watch.judge_phase (w : Watch) (kept : Bool) : (w.judge kept).phase = w.phase := rfl
@[simp] theorem Watch.judge_waited (w : Watch) (kept : Bool) : (w.judge kept).waited = w.waited := rfl
@[simp] theorem Watch.judge_got (w : Watch) (kept : Bool) : (w.judge kept).got = w.got := rfl
@[simp] theorem Watch.begin_broken (w : Watch) (p : Phase) (l : Bool) : (w.begin p l).broken = w.broken := rfl
@[simp] theorem Watch.begin_phase (w : Watch) (p : Phase) (l : Bool) : (w.begin p l).phase = p := rfl
@[simp] theorem Watch.begin_waited (w : Watch) (p : Phase) (l : Bool) : (w.begin p l).waited = 0 := rfl
@[simp] theorem Watch.begin_got (w : Watch) (p : Phase) (l : Bool) : (w.begin p l).got = [] := rfl

theorem Watch.pulse_broken (w : Watch) (e : Premises) (h : w.broken = true) : (w.pulse e).broken = true := by
  simp [Watch.pulse, h]

theorem Watch.sleepByte_broken (w : Watch) (h : w.broken = true) : w.sleepByte.broken = true := by
  simp [Watch.sleepByte, h]

theorem Watch.frame_broken (w : Watch) (e : Premises) (opcode param1 : Byte) (param2 : Half) (r : Ack) :
    (w.frame e opcode param1 param2 r).broken = (w.broken || !(w.complete && (!e.uses opcode || w.loaded))) := by
  cases r <;> rfl

/-- A frame answered `ok` begins an exchange: nothing waited for, nothing read. -/
theorem Watch.frame_ok (w : Watch) (e : Premises) (opcode param1 : Byte) (param2 : Half) :
    (w.frame e opcode param1 param2 .ok).phase = .commanded opcode ∧
      (w.frame e opcode param1 param2 .ok).waited = 0 ∧ (w.frame e opcode param1 param2 .ok).got = [] := ⟨rfl, rfl, rfl⟩

theorem Watch.read_broken (w : Watch) (e : Premises) (ans : ReadAnswer) :
    (w.read e ans).broken = (w.broken || !w.mayRead e) := by
  cases ans <;> rfl

theorem Watch.write_broken (w : Watch) (e : Premises) (p : Params) (dev a : BusAddr) (c : List Byte) (r : Ack)
    (h : w.broken = true) : (w.write e p dev a c r).broken = true := by
  unfold Watch.write
  split
  · exact w.pulse_broken e h
  split
  · simp [h]
  split
  · cases r <;> exact h
  split
  · cases r <;> exact w.sleepByte_broken h
  split
  · split
    · rw [Watch.frame_broken, h]; rfl
    · simp [h]
  · simp [h]

/-- Nothing repairs a breach. -/
theorem watchEvent_broken (e : Premises) (p : Params) (dev : BusAddr) (w : Watch) (ev : Event) (h : w.broken = true) :
    (watchEvent e p dev w ev).broken = true := by
  cases ev with
  | wr a c r => exact Watch.write_broken _ e p dev a c r (by simp [h])
  | rd a m ans =>
    simp only [watchEvent]
    split
    · rw [Watch.read_broken, h]; rfl
    · simp [h]
  | dly n => exact h

/-- R121: every write inside the wait after a pulse is a breach. -/
theorem watchEvent_settling {e : Premises} {p : Params} {dev : BusAddr} {w : Watch} (h : w.settling = true) (a : BusAddr)
    (c : List Byte) (r : Ack) : (watchEvent e p dev w (.wr a c r)).broken = true :=
  Watch.write_broken _ e p dev a c r (by simp [h])

theorem watchAfter_broken (e : Premises) (p : Params) (dev : BusAddr) (tr : List Event) :
    ∀ w : Watch, w.broken = true → (watchAfter e p dev w tr).broken = true := by
  induction tr with
  | nil => exact fun _ h => h
  | cons ev tr ih => exact fun w h => ih _ (watchEvent_broken e p dev w ev h)

theorem watchAfter_append (e : Premises) (p : Params) (dev : BusAddr) (w : Watch) (tr tr' : List Event) :
    watchAfter e p dev w (tr ++ tr') = watchAfter e p dev (watchAfter e p dev w tr) tr' := List.foldl_append ..

theorem devicesAfter_append (p : Params) (dev : BusAddr) (ds : List DeviceState) (tr tr' : List Event) :
    devicesAfter p dev ds (tr ++ tr') = devicesAfter p dev (devicesAfter p dev ds tr) tr' := List.foldl_append ..

/-- What a longer trace of the same block is remembered as. -/
theorem State.watch_of_trace {s t : State} {es : List Event} (e : Premises) (hc : t.cfg = s.cfg)
    (hd : t.devAddr = s.devAddr) (ht : t.trace = s.trace ++ es) :
    t.watch e = watchAfter e s.cfg s.devAddr (s.watch e) es := by
  rw [State.watch, hc, hd, ht, watchAfter_append]; rfl

/-- A breach stays one in every longer trace. -/
theorem State.dutyBroken_of_trace {s t : State} {es : List Event} (e : Premises) (hc : t.cfg = s.cfg)
    (hd : t.devAddr = s.devAddr) (ht : t.trace = s.trace ++ es) (h : s.dutyBroken e = true) : t.dutyBroken e = true := by
  rw [State.dutyBroken, State.watch_of_trace e hc hd ht]; exact watchAfter_broken _ _ _ _ _ h

theorem DeviceState.mem_all (d : DeviceState) : d ∈ DeviceState.all := by
  obtain ⟨p, k⟩ := d
  cases p <;> cases k <;> decide

/-- R41, R128: no event makes a device idle without its transient state, or asleep with it. -/
theorem deviceAfterEvent_survives {p : Params} {dev : BusAddr} {d t : DeviceState} {ev : Event}
    (hd : d.survives = true) (ht : t ∈ deviceAfterEvent p dev d ev) : t.survives = true := by
  have hpulse : ∀ t ∈ deviceAfterPulse d, t.survives = true := by
    intro t ht
    unfold deviceAfterPulse at ht
    split at ht
    · exact (List.mem_filter.1 ht).2
    · rcases List.mem_cons.1 ht with rfl | ht
      · rfl
      · exact List.mem_singleton.1 ht ▸ hd
  have hidle : ∀ t ∈ deviceAfterIdle d, t.survives = true := by
    intro t ht
    unfold deviceAfterIdle at ht
    split at ht
    · exact List.mem_singleton.1 ht ▸ rfl
    all_goals exact List.mem_singleton.1 ht ▸ hd
  have hsleep : ∀ t ∈ deviceAfterSleep d, t.survives = true := by
    intro t ht
    unfold deviceAfterSleep at ht
    split at ht
    · exact List.mem_singleton.1 ht ▸ rfl
    all_goals
      rcases List.mem_cons.1 ht with rfl | ht
      · rfl
      · exact List.mem_singleton.1 ht ▸ hd
  cases ev with
  | wr a c r =>
    simp only [deviceAfterEvent] at ht
    repeat' split at ht
    · exact hpulse t ht
    · exact hidle t ht
    · rcases List.mem_cons.1 ht with rfl | ht
      · exact hd
      · exact hidle t ht
    · exact hsleep t ht
    · rcases List.mem_cons.1 ht with rfl | ht
      · exact hd
      · exact hsleep t ht
    · exact List.mem_singleton.1 ht ▸ hd
  | rd a m ans => exact List.mem_singleton.1 ht ▸ hd
  | dly n => exact List.mem_singleton.1 ht ▸ hd

theorem devicesAfter_survives {p : Params} {dev : BusAddr} (tr : List Event) : ∀ {ds : List DeviceState},
    (∀ d ∈ ds, d.survives = true) → ∀ t ∈ devicesAfter p dev ds tr, t.survives = true := by
  induction tr with
  | nil => exact fun h => h
  | cons ev tr ih =>
    intro ds h
    refine ih fun t ht => ?_
    obtain ⟨d, hd, hdt⟩ := List.mem_flatMap.1 ht
    exact deviceAfterEvent_survives (h d hd) hdt

/-- R128: while the duties are kept, a device that may be idle has kept its transient state, and one that may be asleep has
discarded it. -/
theorem State.possibleDevices_survives {s : State} {e : Premises} (h : s.dutyBroken e = false) {d : DeviceState}
    (hd : d ∈ s.possibleDevices e) : d.survives = true := by
  unfold State.possibleDevices at hd
  rw [if_neg (by simp [h])] at hd
  exact devicesAfter_survives _ (by decide) d hd

/-- R270: after a breach every device state is allowed. -/
theorem State.possibleDevices_of_broken (s : State) (e : Premises) (h : s.dutyBroken e = true) (d : DeviceState) :
    d ∈ s.possibleDevices e := by
  rw [State.possibleDevices, if_pos h]; exact d.mem_all

theorem State.possibleDevices_of_kept (s : State) (e : Premises) (h : s.dutyBroken e = false) :
    s.possibleDevices e = devicesAfter s.cfg s.devAddr [⟨.sleeping, false⟩] s.trace := by
  rw [State.possibleDevices, if_neg (by simp [h])]

end Sys2Proof.Machine
end

