-- ==== Sys2Proof/Laws/PerInstr.lean ====
section
/-! SUPPORT. Per instruction: exactly the eleven operations of R80 stand on the host port as requests; the six wire formats
stand on the bus. -/

namespace Sys2Proof.Laws.OnHostPort

open Sys2Proof Sys2Proof.Machine

/-- R80, R81: an instruction's encoding is a request exactly if the instruction is an operation of the block. -/
def Statement (i : Instr) : Prop :=
  ∀ (p : Params) (dev : BusAddr), isOperation i = true ↔ ∃ r : Request, Sys2Proof.encode p dev i = .request r

theorem of_request {i : Instr} (h : isOperation i = true)
    (e : ∀ p dev, ∃ r : Request, Sys2Proof.encode p dev i = .request r) : Statement i :=
  fun p dev => ⟨fun _ => e p dev, fun _ => h⟩

theorem of_bus {i : Instr} (h : isOperation i = false)
    (e : ∀ p dev r, Sys2Proof.encode p dev i ≠ .request r) : Statement i :=
  fun p dev => ⟨fun k => by rw [h] at k; exact absurd k (by decide), fun ⟨r, k⟩ => absurd k (e p dev r)⟩

theorem crcClr : Statement .crcClr :=
  of_request rfl fun _ _ => ⟨_, rfl⟩

theorem crcShift (d : Bool) : Statement (.crcShift d) :=
  of_request rfl fun _ _ => ⟨_, rfl⟩

theorem crcByte (b : Byte) : Statement (.crcByte b) :=
  of_request rfl fun _ _ => ⟨_, rfl⟩

theorem crc16 (data : List Byte) : Statement (.crc16 data) :=
  of_request rfl fun _ _ => ⟨_, rfl⟩

theorem wake : Statement .wake :=
  of_request rfl fun _ _ => ⟨_, rfl⟩

theorem idle : Statement .idle :=
  of_request rfl fun _ _ => ⟨_, rfl⟩

theorem sleep : Statement .sleep :=
  of_request rfl fun _ _ => ⟨_, rfl⟩

theorem encode (opcode param1 : Byte) (param2 : Half) (data : List Byte) : Statement (.encode opcode param1 param2 data) :=
  of_request rfl fun _ _ => ⟨_, rfl⟩

theorem decode : Statement .decode :=
  of_request rfl fun _ _ => ⟨_, rfl⟩

theorem transmit : Statement .transmit :=
  of_request rfl fun _ _ => ⟨_, rfl⟩

theorem receive (expectedLen : Byte) : Statement (.receive expectedLen) :=
  of_request rfl fun _ _ => ⟨_, rfl⟩

theorem outFrame (opcode param1 : Byte) (param2 : Half) (data : List Byte) : Statement (.outFrame opcode param1 param2 data) :=
  of_bus rfl fun _ _ _ h => nomatch h

theorem inFrame (payload : List Byte) : Statement (.inFrame payload) :=
  of_bus rfl fun _ _ _ h => nomatch h

theorem ctrlIdle : Statement .ctrlIdle :=
  of_bus rfl fun _ _ _ h => nomatch h

theorem ctrlSleep : Statement .ctrlSleep :=
  of_bus rfl fun _ _ _ h => nomatch h

theorem wakePulse : Statement .wakePulse :=
  of_bus rfl fun _ _ _ h => nomatch h

theorem wakeResponse : Statement .wakeResponse :=
  of_bus rfl fun _ _ _ h => nomatch h

end Sys2Proof.Laws.OnHostPort
end

