-- ==== Sys2Proof/Laws/Transfer.lean ====
section
/-! SUPPORT. The transfer engine: what one delivered byte, one answer and the whole read loop do. Callers cite
`receiveSteps_spec` and unfold none of it. -/

namespace Sys2Proof.Machine

/-- The reassembly buffer after the bytes `d` have been delivered: the first 128 stored, the sentinel above them, the count
saturated, the rest discarded with the flag set (R164, R166). -/
structure State.Collected (s : State) (d : List Byte) : Prop where
  total : s.rxTotal.toNat = min d.length Config.rxTotalMax
  bytes : ∀ k < Config.rxbufCap, s.rxbuf.find k = some (d[k]?.getD Config.sentinel)
  flag : s.overflow = decide (Config.rxbufCap < d.length)
  wf : Memory.wf Config.rxbufCap s.rxbuf

theorem State.Collected.congr {s t : State} {d : List Byte} (h : s.Collected d) (h1 : t.rxTotal = s.rxTotal)
    (h2 : t.rxbuf = s.rxbuf) (h3 : t.overflow = s.overflow) : t.Collected d :=
  ⟨h1 ▸ h.total, h2 ▸ h.bytes, h3 ▸ h.flag, h2 ▸ h.wf⟩

theorem State.startReceive_collected (s : State) (n : Byte) : (s.startReceive n).Collected [] := by
  refine ⟨by simp, fun k hk => ?_, by simp, ?_⟩
  · simp only [State.startReceive_rxbuf, Memory.find_fill, if_pos hk]; simp
  · simpa using Memory.fill_wf Config.rxbufCap Config.sentinel

theorem State.storeByte_collected {s : State} {d : List Byte} (h : s.Collected d) (b : Byte) :
    (s.storeByte b).Collected (d ++ [b]) := by
  have ht := h.total
  simp only [Config.rxTotalMax] at ht
  refine ⟨?_, fun k hk => ?_, ?_, ?_⟩
  · simp only [State.storeByte_rxTotal, Config.rxTotalMax, List.length_append, List.length_singleton]
    split
    · rw [BitVec.toNat_add]; simp; omega
    · omega
  · simp only [State.storeByte_rxbuf]
    by_cases hr : s.hasRoom = true
    · have hr' := hr
      simp only [State.hasRoom, decide_eq_true_eq, Config.rxbufCap] at hr'
      have hd : s.rxTotal.toNat = d.length := by omega
      rw [if_pos hr, Memory.find_write, hd, h.bytes k hk]
      by_cases hk2 : d.length = k
      · subst hk2; simp
      · rw [if_neg hk2, List.getElem?_append]
        split
        · rfl
        · rw [List.getElem?_eq_none (by omega : d.length ≤ k), List.getElem?_eq_none (by simp; omega)]
    · have hr' := hr
      simp only [State.hasRoom, decide_eq_true_eq, Config.rxbufCap] at hr'
      have hkd : k < d.length := by simp only [Config.rxbufCap] at hk; omega
      simp only [hr, Bool.false_eq_true, if_false, h.bytes k hk, List.getElem?_append, hkd, if_true]
  · simp only [State.storeByte_overflow, h.flag, List.length_append, List.length_singleton]
    by_cases hr : s.hasRoom = true
    · have hr' := hr
      simp only [State.hasRoom, decide_eq_true_eq, Config.rxbufCap] at hr'
      simp only [hr, if_true, Config.rxbufCap]
      rw [decide_eq_decide]; omega
    · have hr' := hr
      simp only [State.hasRoom, decide_eq_true_eq, Config.rxbufCap] at hr'
      simp only [hr, Bool.false_eq_true, if_false, Config.rxbufCap]
      symm; rw [decide_eq_true_eq]; omega
  · simp only [State.storeByte_rxbuf]
    split
    · rename_i hr
      simp only [State.hasRoom, decide_eq_true_eq] at hr
      exact Memory.write_wf b h.wf hr
    · exact h.wf

theorem State.storeBytes_collected {s : State} {d : List Byte} (h : s.Collected d) (c : List Byte) :
    (s.storeBytes c).Collected (d ++ c) := by
  induction c generalizing s d with
  | nil => simpa [State.storeBytes] using h
  | cons b c ih =>
    have := ih (State.storeByte_collected h b)
    simpa [State.storeBytes] using this

/-- What the engine's own work leaves alone. -/
structure State.EngineFrame (s t : State) : Prop where
  crcReg : t.crcReg = s.crcReg
  lastCrc : t.lastCrc = s.lastCrc
  ps : t.ps = s.ps
  err : t.err = s.err
  devAddr : t.devAddr = s.devAddr
  txbuf : t.txbuf = s.txbuf
  txLen : t.txLen = s.txLen
  cfg : t.cfg = s.cfg
  output : t.output = s.output
  inputs : t.inputs = s.inputs
  writeAnswers : t.writeAnswers = s.writeAnswers

theorem State.EngineFrame.refl (s : State) : s.EngineFrame s := ⟨rfl, rfl, rfl, rfl, rfl, rfl, rfl, rfl, rfl, rfl, rfl⟩

theorem State.EngineFrame.trans {s t u : State} (h : s.EngineFrame t) (g : t.EngineFrame u) : s.EngineFrame u :=
  ⟨g.crcReg.trans h.crcReg, g.lastCrc.trans h.lastCrc, g.ps.trans h.ps, g.err.trans h.err, g.devAddr.trans h.devAddr,
    g.txbuf.trans h.txbuf, g.txLen.trans h.txLen, g.cfg.trans h.cfg, g.output.trans h.output, g.inputs.trans h.inputs,
    g.writeAnswers.trans h.writeAnswers⟩

theorem State.storeByte_frame (s : State) (b : Byte) : s.EngineFrame (s.storeByte b) := by constructor <;> simp

theorem State.storeBytes_frame (s : State) (c : List Byte) : s.EngineFrame (s.storeBytes c) := by
  induction c generalizing s with
  | nil => exact .refl s
  | cons b c ih => exact (State.storeByte_frame s b).trans (ih (s.storeByte b))

theorem State.trRead_frame (s : State) (a : BusAddr) (m : Nat) : s.EngineFrame (s.trRead a m).2 := by
  constructor <;> simp

theorem State.startReceive_frame (s : State) (n : Byte) : s.EngineFrame (s.startReceive n) := by constructor <;> simp

/-- The registers that storing bytes leaves alone beside the frame. -/
theorem State.storeBytes_keeps (s : State) (c : List Byte) :
    (s.storeBytes c).rxExpected = s.rxExpected ∧ (s.storeBytes c).attempts = s.attempts ∧
      (s.storeBytes c).exhausted = s.exhausted ∧ (s.storeBytes c).trace = s.trace ∧
      (s.storeBytes c).readAnswers = s.readAnswers ∧ (s.storeBytes c).draws = s.draws := by
  induction c generalizing s with
  | nil => simp [State.storeBytes]
  | cons b c ih => simpa [State.storeBytes] using ih (s.storeByte b)

theorem State.storeBytes_draws (s : State) (c : List Byte) : (s.storeBytes c).draws = s.draws :=
  (State.storeBytes_keeps s c).2.2.2.2.2

theorem State.chunk_pos {s : State} (h : s.incomplete = true) : 1 ≤ s.chunk ∧ s.chunk ≤ Config.chunkMax := by
  simp only [State.incomplete, decide_eq_true_eq] at h
  simp only [State.chunk, Config.chunkMax]; omega

/-- One turn of the read loop, when it reads (R162 lines 4 to 12). -/
theorem State.receiveLoop_succ (fuel : Nat) (s : State) (h : s.incomplete = true) (ha : s.attempts.toNat < Config.attemptMax) :
    s.receiveLoop (fuel + 1) =
      match s.nextRead s.chunk with
      | .err => (.busError, (s.trRead s.devAddr s.chunk).2.countAttempt)
      | .bytes c => State.receiveLoop fuel ((s.trRead s.devAddr s.chunk).2.countAttempt.storeBytes c) := by
  simp only [State.receiveLoop, h, decide_eq_true ha, Bool.and_self, if_true]
  cases hr : s.nextRead s.chunk <;> simp [State.trRead, hr]

/-- The loop's end, when the total is reached or the attempts are used up (R168). -/
theorem State.receiveLoop_stop (fuel : Nat) (s : State)
    (h : s.incomplete = false ∨ Config.attemptMax ≤ s.attempts.toNat) : s.receiveLoop fuel = (.ok, s) := by
  cases fuel with
  | zero => rfl
  | succ n =>
    rcases h with h | h
    · simp [State.receiveLoop, h]
    · have : ¬ s.attempts.toNat < Config.attemptMax := by omega
      simp [State.receiveLoop, this]

/-- The loop never counts past 20 (R26, R167). -/
theorem State.receiveLoop_attempts_le (fuel : Nat) (s : State) (h : s.attempts.toNat ≤ Config.attemptMax) :
    (s.receiveLoop fuel).2.attempts.toNat ≤ Config.attemptMax := by
  induction fuel generalizing s with
  | zero => exact h
  | succ fuel ih =>
    by_cases hc : s.incomplete = true ∧ s.attempts.toNat < Config.attemptMax
    · rw [State.receiveLoop_succ _ _ hc.1 hc.2]
      have h1 : (s.trRead s.devAddr s.chunk).2.countAttempt.attempts.toNat ≤ Config.attemptMax := by
        have := hc.2
        simp only [State.countAttempt_attempts, State.trRead_snd, State.logEvent_attempts, State.dropRead_attempts,
          Config.attemptMax] at this ⊢
        rw [BitVec.toNat_add]; simp; omega
      cases s.nextRead s.chunk with
      | err => exact h1
      | bytes c =>
        refine ih _ ?_
        rw [(State.storeBytes_keeps _ c).2.1]; exact h1
    · rw [State.receiveLoop_stop]
      · exact h
      · by_cases hi : s.incomplete = true
        · exact .inr (Nat.not_lt.1 fun ha => hc ⟨hi, ha⟩)
        · exact .inl (by simpa using hi)

/-- Everything the read loop can do, from a state in which `d` has been delivered: the reads it makes, what they
delivered, and how it ended. -/
structure State.LoopSpec (s : State) (d : List Byte) (r : ResultCode) (t : State) (es : List Event) : Prop where
  frame : s.EngineFrame t
  expected : t.rxExpected = s.rxExpected
  exhausted : t.exhausted = s.exhausted
  trace : t.trace = s.trace ++ es
  attempts : t.attempts.toNat = s.attempts.toNat + es.length
  reads : ∀ pre e post, es = pre ++ e :: post → ∃ ans, e = .rd s.devAddr
    (min Config.chunkMax (s.rxExpected.toNat - min (d ++ delivered pre).length Config.rxTotalMax)) ans ∧
    min (d ++ delivered pre).length Config.rxTotalMax < s.rxExpected.toNat ∧ (ans = .err → post = [])
  collected : t.Collected (d ++ delivered es)
  result : r = .ok ∨ r = .busError
  failed : r = .busError ↔ ∃ e ∈ es, e.isFailedRead = true
  stopped : r = .ok → t.incomplete = false ∨ t.attempts.toNat = Config.attemptMax

theorem State.receiveLoop_spec (fuel : Nat) (s : State) (d : List Byte) (h : s.Collected d)
    (hf : s.attempts.toNat + fuel = Config.attemptMax) :
    ∃ es, s.LoopSpec d (s.receiveLoop fuel).1 (s.receiveLoop fuel).2 es := by
  induction fuel generalizing s d with
  | zero =>
    refine ⟨[], .refl s, rfl, rfl, by simp [State.receiveLoop], by simp [State.receiveLoop], ?_, ?_, .inl rfl, ?_, ?_⟩
    · intro pre e post he; simp at he
    · simpa [delivered, State.receiveLoop] using h
    · simp [State.receiveLoop]
    · intro _; exact .inr (by simpa [State.receiveLoop] using hf)
  | succ fuel ih =>
    by_cases hi : s.incomplete = true
    · have ha : s.attempts.toNat < Config.attemptMax := by omega
      have htot : s.rxTotal.toNat = min d.length Config.rxTotalMax := h.total
      have hlt : s.rxTotal.toNat < s.rxExpected.toNat := by simpa [State.incomplete] using hi
      have hatt : (s.attempts + 1#5).toNat = s.attempts.toNat + 1 := by
        rw [BitVec.toNat_add]; simp only [Config.attemptMax] at ha; simp; omega
      rw [State.receiveLoop_succ _ _ hi ha]
      cases hr : s.nextRead s.chunk with
      | err =>
        refine ⟨[.rd s.devAddr s.chunk .err], by constructor <;> simp, by simp, by simp,
          by simp [hr], by simpa using hatt, ?_, ?_, .inr rfl, ?_, by simp⟩
        · intro pre e post he
          rcases pre with _ | ⟨p, pre⟩
          · simp only [List.nil_append, List.cons.injEq] at he
            refine ⟨.err, ?_, ?_, fun _ => he.2.symm⟩
            · rw [← he.1]; simp [State.chunk, delivered, htot]
            · simpa [delivered, ← htot] using hlt
          · simp at he
        · have : delivered [Event.rd s.devAddr s.chunk .err] = [] := rfl
          rw [this, List.append_nil]
          exact h.congr (by simp) (by simp) (by simp)
        · simp [Event.isFailedRead]
      | bytes c =>
        simp only
        generalize hu : ((s.trRead s.devAddr s.chunk).2.countAttempt.storeBytes c) = u
        have hk := State.storeBytes_keeps (s.trRead s.devAddr s.chunk).2.countAttempt c
        rw [hu] at hk
        obtain ⟨k1, k2, k3, k4, k5, k6⟩ := hk
        have hcol : u.Collected (d ++ c) := by
          rw [← hu]
          exact State.storeBytes_collected (h.congr (by simp) (by simp) (by simp)) c
        have hfr : s.EngineFrame u := by
          rw [← hu]
          exact State.EngineFrame.trans (t := (s.trRead s.devAddr s.chunk).2.countAttempt) (by constructor <;> simp)
            (State.storeBytes_frame _ _)
        have hua : u.attempts.toNat = s.attempts.toNat + 1 := by rw [k2]; simpa using hatt
        obtain ⟨es, g⟩ := ih u (d ++ c) hcol (by omega)
        have hde : ∀ l, delivered (Event.rd s.devAddr s.chunk (.bytes c) :: l) = c ++ delivered l := fun l => rfl
        refine ⟨.rd s.devAddr s.chunk (.bytes c) :: es, hfr.trans g.frame, ?_, ?_, ?_, ?_, ?_, ?_, g.result, ?_, g.stopped⟩
        · rw [g.expected, k1]; simp
        · rw [g.exhausted, k3]; simp
        · rw [g.trace, k4]; simp [hr]
        · rw [g.attempts, hua]; simp; omega
        · intro pre e post he
          rcases pre with _ | ⟨p, pre⟩
          · simp only [List.nil_append, List.cons.injEq] at he
            refine ⟨.bytes c, ?_, ?_, fun e => by cases e⟩
            · rw [← he.1]; simp [State.chunk, delivered, htot]
            · simpa [delivered, ← htot] using hlt
          · simp only [List.cons_append, List.cons.injEq] at he
            obtain ⟨ans, q1, q2, q3⟩ := g.reads pre e post he.2
            have hexp : u.rxExpected = s.rxExpected := by rw [k1]; simp
            rw [hexp, List.append_assoc, ← hde, he.1] at q1 q2
            exact ⟨ans, hfr.devAddr ▸ q1, q2, q3⟩
        · have := g.collected
          rwa [List.append_assoc, ← hde] at this
        · rw [g.failed]; simp [Event.isFailedRead]
    · have hi' : s.incomplete = false := by simpa using hi
      rw [State.receiveLoop_stop _ _ (.inl hi')]
      refine ⟨[], .refl s, rfl, rfl, by simp, by simp, ?_, ?_, .inl rfl, by simp, fun _ => .inl hi'⟩
      · intro pre e post he; simp at he
      · simpa [delivered] using h

/-- Everything `receive_steps` can do (R162 without its write of `ps`): callers cite this and unfold nothing. -/
structure State.StepsSpec (s : State) (n : Byte) (r : ResultCode) (t : State) (es : List Event) : Prop where
  frame : s.EngineFrame t
  expected : t.rxExpected.toNat = min n.toNat Config.rxbufCap
  trace : t.trace = s.trace ++ es
  attempts : t.attempts.toNat = es.length
  atMost : es.length ≤ Config.attemptMax
  reads : ∀ pre e post, es = pre ++ e :: post → ∃ ans, e = .rd s.devAddr
    (min Config.chunkMax (min n.toNat Config.rxbufCap - min (delivered pre).length Config.rxTotalMax)) ans ∧
    min (delivered pre).length Config.rxTotalMax < min n.toNat Config.rxbufCap ∧ (ans = .err → post = [])
  collected : t.Collected (delivered es)
  result : r = .ok ∨ r = .busError
  failed : r = .busError ↔ ∃ e ∈ es, e.isFailedRead = true
  exhausted : t.exhausted = (decide (r = .ok) && t.incomplete)
  stopped : r = .ok → t.incomplete = false ∨ t.attempts.toNat = Config.attemptMax

theorem State.receiveSteps_spec (s : State) (n : Byte) :
    ∃ es, s.StepsSpec n (s.receiveSteps n).1 (s.receiveSteps n).2 es := by
  obtain ⟨es, g⟩ := State.receiveLoop_spec Config.attemptMax (s.startReceive n) [] (State.startReceive_collected s n)
    (by simp)
  have hexp : (s.startReceive n).rxExpected.toNat = min n.toNat Config.rxbufCap := by
    simp only [State.startReceive_rxExpected, Config.rxbufCap]; split
    · omega
    · simp; omega
  have hlen : ((s.startReceive n).receiveLoop Config.attemptMax).2.attempts.toNat = es.length := by simpa using g.attempts
  have hle : es.length ≤ Config.attemptMax := by
    by_cases he : es = []
    · simp [he]
    · have h5 := ((s.startReceive n).receiveLoop Config.attemptMax).2.attempts.isLt
      have := State.receiveLoop_attempts_le Config.attemptMax (s.startReceive n) (by simp)
      omega
  have hframe := (State.startReceive_frame s n).trans g.frame
  have htr : ((s.startReceive n).receiveLoop Config.attemptMax).2.trace = s.trace ++ es := by simpa using g.trace
  have hreads : ∀ pre e post, es = pre ++ e :: post → ∃ ans, e = .rd s.devAddr
      (min Config.chunkMax (min n.toNat Config.rxbufCap - min (delivered pre).length Config.rxTotalMax)) ans ∧
      min (delivered pre).length Config.rxTotalMax < min n.toNat Config.rxbufCap ∧ (ans = .err → post = []) := by
    intro pre e post he
    have := g.reads pre e post he
    simpa only [List.nil_append, State.startReceive_devAddr, hexp] using this
  have hcol : ((s.startReceive n).receiveLoop Config.attemptMax).2.Collected (delivered es) := by simpa using g.collected
  have hex : ((s.startReceive n).receiveLoop Config.attemptMax).2.exhausted = false := by simpa using g.exhausted
  have hexp2 : ((s.startReceive n).receiveLoop Config.attemptMax).2.rxExpected.toNat = min n.toNat Config.rxbufCap := by
    rw [g.expected, hexp]
  refine ⟨es, ?_⟩
  simp only [State.receiveSteps]
  generalize hq : (s.startReceive n).receiveLoop Config.attemptMax = q at *
  obtain ⟨r, t⟩ := q
  rcases g.result with hr | hr
  · simp only at hr; subst hr
    refine ⟨hframe.trans (by constructor <;> simp), by simpa using hexp2, by simpa using htr, by simpa using hlen, hle, hreads,
      hcol.congr (by simp) (by simp) (by simp), .inl rfl, g.failed, ?_, fun _ => g.stopped rfl⟩
    simp only [decide_true, Bool.true_and]; rfl
  · simp only at hr; subst hr
    exact ⟨hframe, hexp2, htr, hlen, hle, hreads, hcol, .inr rfl, g.failed, by simpa using hex, by simp⟩

/-- How RECEIVE ends, by how its steps ended (R162 lines 13 to 15, R168, R169). -/
theorem runReceive_cases (n : Byte) (s : State) :
    ∃ es r t, s.StepsSpec n r t es ∧ s.receiveSteps n = (r, t) ∧
      ((r = .ok ∧ t.exhausted = false ∧ runReceive n s = (t.setPs .ready).finish .ok t.receivedOutput) ∨
        (r = .ok ∧ t.exhausted = true ∧ runReceive n s = t.finish .ok t.receivedOutput) ∨
        (r = .busError ∧ runReceive n s = t.finish .busError .none)) := by
  obtain ⟨es, g⟩ := s.receiveSteps_spec n
  refine ⟨es, _, _, g, rfl, ?_⟩
  have hr := g.result
  unfold runReceive
  generalize s.receiveSteps n = q at *
  obtain ⟨r, t⟩ := q
  rcases hr with hr | hr <;> simp only at hr <;> subst hr
  · cases he : t.exhausted <;> simp [he]
  · simp

/-! ### A frame that stands on the bus -/

/-- A frame that fits one read. -/
theorem readSchedule_short (dev : BusAddr) {c : List Byte} (h : c.length ≤ 32) (hne : c ≠ []) :
    readSchedule dev c = [.rd dev c.length (.bytes c)] := by
  have h0 : 0 < c.length := List.length_pos_iff.2 hne
  have e : (c.length + 31) / 32 = 1 := by omega
  simp [readSchedule, e, Nat.min_eq_right h, List.take_of_length_le h]

/-- A longer frame: one full read, then the schedule of what is left. -/
theorem readSchedule_long (dev : BusAddr) {c : List Byte} (h : 32 < c.length) :
    readSchedule dev c = .rd dev 32 (.bytes (c.take 32)) :: readSchedule dev (c.drop 32) := by
  obtain ⟨k, hk⟩ : ∃ k, (c.length + 31) / 32 = k + 1 := ⟨(c.length + 31) / 32 - 1, by omega⟩
  have hk2 : ((c.drop 32).length + 31) / 32 = k := by rw [List.length_drop]; omega
  simp only [readSchedule, hk, hk2, List.range_succ_eq_map, List.map_cons, List.map_map]
  have e : min Config.chunkMax (c.length - 32 * 0) = 32 := by simp only [Config.chunkMax]; omega
  rw [e]
  congr 1
  apply List.map_congr_left
  intro j _
  simp only [Function.comp_apply, List.length_drop, List.drop_drop, Nat.succ_eq_add_one]
  have e1 : c.length - 32 * (j + 1) = c.length - 32 - 32 * j := by omega
  have e2 : 32 * (j + 1) = 32 + 32 * j := by omega
  rw [e1, e2]

theorem delivered_readSchedule (dev : BusAddr) (c : List Byte) : delivered (readSchedule dev c) = c := by
  suffices h : ∀ n (c : List Byte), c.length ≤ n → delivered (readSchedule dev c) = c from h _ c (Nat.le_refl _)
  intro n
  induction n with
  | zero => intro c h; obtain rfl := List.length_eq_zero_iff.1 (by omega : c.length = 0); rfl
  | succ n ih =>
    intro c h
    by_cases h32 : c.length ≤ 32
    · by_cases hc : c = []
      · subst hc; rfl
      · rw [readSchedule_short dev h32 hc]; simp [delivered, Event.readBytes]
    · rw [readSchedule_long dev (by omega)]
      have := ih (c.drop 32) (by rw [List.length_drop]; omega)
      simp only [delivered, List.flatMap_cons, Event.readBytes] at this ⊢
      rw [this, List.take_append_drop]

theorem State.storeBytes_rxTotal {s : State} {d : List Byte} (h : s.Collected d) (c : List Byte) :
    (s.storeBytes c).rxTotal.toNat = min (d.length + c.length) Config.rxTotalMax := by
  have := (State.storeBytes_collected h c).total; simpa using this

/-- The read loop over a frame that stands on the bus and is exactly as long as what is outstanding (R171). -/
theorem State.receiveLoop_frame (fuel : Nat) (s : State) (d c : List Byte) (rest : List Pending) (hd : s.Collected d)
    (h : s.readAnswers = .frame c :: rest) (hlen : d.length + c.length = s.rxExpected.toNat)
    (hmax : s.rxExpected.toNat ≤ 128) (hne : c ≠ []) (hf : c.length ≤ 32 * fuel)
    (ha : s.attempts.toNat + fuel ≤ Config.attemptMax) :
    ∃ t, s.receiveLoop fuel = (.ok, t) ∧ t.trace = s.trace ++ readSchedule s.devAddr c ∧ t.readAnswers = rest ∧
      t.draws = s.draws ∧ t.incomplete = false := by
  induction fuel generalizing s d c with
  | zero => exact absurd (List.length_eq_zero_iff.1 (by omega)) hne
  | succ fuel ih =>
    have h0 : 0 < c.length := List.length_pos_iff.2 hne
    have htot := hd.total
    simp only [Config.rxTotalMax] at htot
    have hi : s.incomplete = true := by simp only [State.incomplete, decide_eq_true_eq]; omega
    have hchunk : s.chunk = min 32 c.length := by simp only [State.chunk, Config.chunkMax]; omega
    rw [State.receiveLoop_succ _ _ hi (by omega)]
    have hread : ∀ m, s.nextRead m = .bytes (c.take m) := fun m => by simp [State.nextRead, h]
    rw [hread]
    simp only
    have hkeep := State.storeBytes_keeps (s.trRead s.devAddr s.chunk).2.countAttempt (c.take s.chunk)
    have hcol : (s.trRead s.devAddr s.chunk).2.countAttempt.Collected d := hd.congr (by simp) (by simp) (by simp)
    have hcol2 := State.storeBytes_collected hcol (c.take s.chunk)
    have hfr := (State.storeBytes_frame (s.trRead s.devAddr s.chunk).2.countAttempt (c.take s.chunk)).devAddr
    generalize (s.trRead s.devAddr s.chunk).2.countAttempt.storeBytes (c.take s.chunk) = u at *
    obtain ⟨k1, k2, k3, k4, k5, k6⟩ := hkeep
    have ka : u.attempts.toNat = s.attempts.toNat + 1 := by
      rw [k2]; simp only [State.countAttempt_attempts, State.trRead_snd, State.logEvent_attempts, State.dropRead_attempts]
      simp only [Config.attemptMax] at ha
      rw [BitVec.toNat_add]; simp; omega
    have kt : u.trace = s.trace ++ [.rd s.devAddr s.chunk (.bytes (c.take s.chunk))] := by rw [k4]; simp [hread]
    have ke : u.rxExpected = s.rxExpected := by rw [k1]; simp
    have kr : u.readAnswers = if c.length ≤ s.chunk then rest else .frame (c.drop s.chunk) :: rest := by
      rw [k5]; simp [State.dropRead, h]
    have kd : u.draws = s.draws := by rw [k6]; simp [State.dropRead, h]
    have kdev : u.devAddr = s.devAddr := by rw [hfr]; simp
    by_cases hl : c.length ≤ 32
    · have hc : s.chunk = c.length := by omega
      rw [hc, List.take_of_length_le (Nat.le_refl _)] at kt hcol2
      rw [hc, if_pos (Nat.le_refl _)] at kr
      have ki : u.incomplete = false := by
        have := hcol2.total
        simp only [Config.rxTotalMax, List.length_append] at this
        simp only [State.incomplete, ke, decide_eq_false_iff_not]; omega
      rw [State.receiveLoop_stop _ _ (.inl ki)]
      exact ⟨u, rfl, by rw [kt, readSchedule_short _ hl hne], kr, kd, ki⟩
    · have hc : s.chunk = 32 := by omega
      rw [hc] at kt hcol2
      rw [hc, if_neg hl] at kr
      obtain ⟨t, e1, e2, e3, e4, e5⟩ := ih u (d ++ c.take 32) (c.drop 32) hcol2 kr
        (by rw [ke]; simp only [List.length_append, List.length_take, List.length_drop]; omega) (by rw [ke]; exact hmax)
        (by intro e; have := congrArg List.length e; simp at this; omega)
        (by rw [List.length_drop]; omega) (by omega)
      exact ⟨t, e1, by rw [e2, kt, kdev, readSchedule_long s.devAddr (c := c) (by omega)]; simp, e3, e4.trans kd, e5⟩

/-- `receive_steps` over such a frame. -/
theorem State.receiveSteps_frame (s : State) (n : Byte) (c : List Byte) (rest : List Pending)
    (h : s.readAnswers = .frame c :: rest) (hlen : c.length = min n.toNat Config.rxbufCap) (hne : c ≠ []) :
    ∃ t, s.receiveSteps n = (.ok, t) ∧ s.StepsSpec n .ok t (readSchedule s.devAddr c) ∧ t.readAnswers = rest ∧
      t.draws = s.draws ∧ t.exhausted = false := by
  simp only [Config.rxbufCap] at hlen
  obtain ⟨t, e1, e2, e3, e4, e5⟩ := State.receiveLoop_frame Config.attemptMax (s.startReceive n) [] c rest
    (State.startReceive_collected s n) (by simpa using h)
    (by simp only [State.startReceive_rxExpected, Config.rxbufCap, List.length_nil, Nat.zero_add, hlen]; split
        · omega
        · simp; omega)
    (by simp only [State.startReceive_rxExpected, Config.rxbufCap]; split
        · omega
        · simp) hne (by simp only [Config.attemptMax]; omega) (by simp)
  have hs : s.receiveSteps n = (.ok, t.noteExhausted) := by simp only [State.receiveSteps, e1]
  obtain ⟨es, g⟩ := s.receiveSteps_spec n
  rw [hs] at g
  have ht : t.noteExhausted.trace = s.trace ++ readSchedule s.devAddr c := by simpa using e2
  rw [g.trace] at ht
  obtain rfl := List.append_cancel_left ht
  exact ⟨_, hs, g, by simpa using e3, by simpa using e4, by simpa using e5⟩

/-- A slice of the reassembly buffer holds what was delivered. -/
theorem State.Collected.rxSlice {s : State} {d : List Byte} (h : s.Collected d) (hd : d.length ≤ Config.rxbufCap) :
    s.rxSlice 0 d.length = d := by
  apply State.rxSlice_eq
  intro k hk
  rw [Nat.zero_add, h.bytes k (by omega)]
  simp [hk]

theorem State.Collected.readRx {s : State} {d : List Byte} (h : s.Collected d) {k : Nat} (hk : k < d.length)
    (hd : d.length ≤ Config.rxbufCap) : s.readRx k = d[k] := by
  rw [State.readRx, h.bytes k (by omega)]; simp [hk]

end Sys2Proof.Machine
end

