-- ==== Sys2Proof/Laws/Power.lean ====
section
/-! SUPPORT. WAKE: what its body does after the read, and by how the read ended. -/

namespace Sys2Proof.Machine

/-- WAKE after its read, by the tests of R120 in their order. -/
theorem State.judgeWake_cases (t : State) :
    (t.exhausted = true ∧ t.judgeWake = t.finish .noResponse .none) ∨
    (t.exhausted = false ∧ t.readRx 1 ≠ Config.wakeSignal ∧ t.judgeWake = t.finish .noResponse .none) ∨
    (t.exhausted = false ∧ t.readRx 1 = Config.wakeSignal ∧ t.countFails = true ∧
      t.judgeWake = t.finish .countMismatch .none) ∨
    (t.exhausted = false ∧ t.readRx 1 = Config.wakeSignal ∧ t.countFails = false ∧ t.crcFails = true ∧
      t.judgeWake = (t.setCodecCrc t.rxCrc).finish .crcMismatch .none) ∨
    (t.exhausted = false ∧ t.readRx 1 = Config.wakeSignal ∧ t.countFails = false ∧ t.crcFails = false ∧
      t.judgeWake = ((t.setCodecCrc t.rxCrc).setPs .ready).finish .ok .none) := by
  cases h1 : t.exhausted
  · by_cases h2 : t.readRx 1 = Config.wakeSignal
    · cases h3 : t.countFails
      · cases h4 : t.crcFails <;> simp [State.judgeWake, State.decodeSteps, h1, h2, h3, h4]
      · simp [State.judgeWake, State.decodeSteps, h1, h2, h3]
    · simp [State.judgeWake, h1, h2]
  · simp [State.judgeWake, h1]

/-- WAKE by how its read ended. -/
theorem runWake_cases (s : State) :
    ∃ es r t, s.wakePulseAndWait.StepsSpec 4#8 r t es ∧ s.wakePulseAndWait.receiveSteps 4#8 = (r, t) ∧
      ((r = .busError ∧ runWake s = t.finish .busError .none) ∨ (r = .ok ∧ runWake s = t.judgeWake)) := by
  obtain ⟨es, g⟩ := s.wakePulseAndWait.receiveSteps_spec 4#8
  refine ⟨es, _, _, g, rfl, ?_⟩
  have hr := g.result
  unfold runWake
  generalize s.wakePulseAndWait.receiveSteps Config.wakeRespLen = q at *
  obtain ⟨r, t⟩ := q
  rcases hr with hr | hr <;> simp only at hr <;> subst hr
  · simp
  · simp

end Sys2Proof.Machine
end

