-- ==== Sys2Proof/Laws/Sequencer.lean ====
section
/-! SUPPORT. What the host's calls return: the interpretation of a payload, the length of the data read. -/

namespace Sys2Proof.Sequencer

open Sys2Proof.Machine

/-- R180: a value a transaction returns is the interpretation of a payload. -/
theorem xact_ok_interpreted {c : Command} {tExec : Nat} {len : Byte} {ip : Interp} {s : State} {v : List Byte}
    (h : (xact c tExec len ip s).reply = .ok v) : ∃ payload, interpret ip payload = .ok v := by
  simp only [xact, wakeThenTransmit, transmitThenCollect, collect, idleThenValidate, validate] at h
  repeat' split at h
  all_goals first | exact ⟨_, h⟩ | cases h

/-- R181: the value of `Data(k)` has `k` bytes. -/
theorem interpret_data_length {k : Nat} {payload v : List Byte} (h : interpret (.data k) payload = .ok v) : v.length = k := by
  simp only [interpret] at h
  split at h
  · rename_i hl; cases h; exact hl
  · cases h

/-- R190: a zone read that succeeds gives the bytes asked for. -/
theorem readZone_length {k : Catalogue} {zone : Zone} {address length : Nat} {h : HostState} {v : List Byte}
    (hr : (readZone k zone address length h).1 = .ok v) : v.length = length := by
  simp only [readZone] at hr
  split at hr
  · obtain ⟨payload, hp⟩ := xact_ok_interpreted hr; exact interpret_data_length hp
  · cases hr

/-- R182: within a frame's limit the response length does not wrap. -/
theorem responseLen_toNat {n : Nat} (h : n + 3 ≤ Config.rxbufCap) : (responseLen n).toNat = 3 + n := by
  simp only [Config.rxbufCap] at h
  simp only [responseLen, BitVec.toNat_ofNat]; omega

/-- R187: under a legal catalogue `getInfo` awaits a frame that can hold the byte it tests. -/
theorem getInfo_awaits {k : Catalogue} (h : k.Legal) :
    6 ≤ (responseLen k.infoPayloadLen).toNat ∧ (responseLen k.infoPayloadLen).toNat ≤ Config.rxbufCap := by
  have := h.2.1
  have := h.2.2
  rw [responseLen_toNat h.2.2]; omega

/-- A zone read touches the block alone. -/
theorem readZone_frame (k : Catalogue) (zone : Zone) (address length : Nat) (h : HostState) :
    (readZone k zone address length h).2.snapshot = h.snapshot ∧ (readZone k zone address length h).2.stale = h.stale ∧
      (readZone k zone address length h).2.tempkeyLoaded = h.tempkeyLoaded := by
  simp only [readZone]; split <;> exact ⟨rfl, rfl, rfl⟩

/-- R255: reading `n` blocks of 32 bytes joins `32 * n` bytes to those before, and touches the block alone. -/
theorem readBlocks_spec (k : Catalogue) (n : Nat) : ∀ (j : Nat) (got : List Byte) (h : HostState),
    (∀ v, (readBlocks k n j got h).1 = .ok v → v.length = got.length + 32 * n) ∧
      (readBlocks k n j got h).2.snapshot = h.snapshot ∧ (readBlocks k n j got h).2.stale = h.stale := by
  induction n with
  | zero => intro j got h; exact ⟨fun v hv => by cases hv; rfl, rfl, rfl⟩
  | succ n ih =>
    intro j got h
    obtain ⟨f1, f2, -⟩ := readZone_frame k .config (k.configAddress j) 32 h
    unfold readBlocks
    split
    · rename_i c h' heq
      have hc : c.length = 32 := readZone_length (by rw [heq])
      rw [heq] at f1 f2
      obtain ⟨i1, i2, i3⟩ := ih (j + 1) (got ++ c) h'
      refine ⟨fun v hv => ?_, i2.trans f1, i3.trans f2⟩
      rw [i1 v hv, List.length_append, hc]; omega
    · rename_i e h' hne heq
      rw [heq] at f1 f2
      exact ⟨fun v hv => absurd hv (hne v), f1, f2⟩

theorem slice_length {c : List Byte} {i n : Nat} (h : i + n ≤ c.length) : ((c.drop i).take n).length = n := by
  rw [List.length_take, List.length_drop]; omega

theorem slotTable_length (table : Nat) (c : List Byte) : (slotTable table c).length = 16 := by
  simp [slotTable]

/-- R45: within the zone every word of a table has its two bytes. -/
theorem slotTable_word_length {table : Nat} {c w : List Byte} (h : table + 32 ≤ c.length) (hw : w ∈ slotTable table c) :
    w.length = 2 := by
  simp only [slotTable, List.mem_map] at hw
  obtain ⟨slot, -, rfl⟩ := hw
  exact slice_length (by have := slot.isLt; omega)

end Sys2Proof.Sequencer
end

