-- ==== Sys2Proof/Tests/Slice0.lean ====
section
/-! SUPPORT. Tests. The expected values are those of spec/95_test_vectors.md (the vector is named in each comment) or of the
rules' own examples; the parameters are those of its section 8. -/

namespace Sys2Proof.Tests

open Sys2Proof Sys2Proof.Machine Sys2Proof.Sequencer

set_option Elab.async false

/-! ### Helpers -/

/-- The parameters of section 8 of the test vectors, with MAX_TRANSFER as given. -/
def par (maxTransfer : Byte) : Params := ⟨0x03#8, 0x02#8, 0x01#8, maxTransfer, 0x00#7⟩

/-- The block after reset under those parameters, with the answers the environment has ready. -/
def start (writes : List Ack) (reads : List Pending) : State :=
  { State.reset with lastCrc := ⟨0x00#8, 0x00#8⟩, cfg := par 135#8, devAddr := 0x60#7, writeAnswers := writes, readAnswers := reads }

/-- A field of the state an instruction leads to. -/
def after {α : Type} (i : Instr) (s : State) (f : State → α) : Option α :=
  match exec i s with
  | .next t => some (f t)
  | .fault _ => none
  | .refused _ => none

/-- `s` with the bytes `bs` in the reassembly buffer and the sentinel above them. -/
def received (s : State) (bs : List Byte) (total : Byte) : State :=
  { s with rxbuf := (List.range 128).map fun i => (i, bs[i]?.getD 0xFF#8), rxTotal := total }

/-- `s` with one input at its interfaces. -/
def given (s : State) (x : Input) : State := { s with inputs := [x] }

def answers (rs : List (List Byte)) : List Pending := rs.map fun c => .answer (.bytes c)

/-- The frame of V35: 23, then 00 to 1F, then 70 FA. -/
def frame35 : List Byte := 0x23#8 :: ((List.range 32).map (BitVec.ofNat 8) ++ [0x70#8, 0xFA#8])

/-- The command of V60 to V68. -/
def lockCommand : Command := ⟨0x17#8, 0x80#8, 0x0000#16, []⟩

/-! ### WellFormed: an ill-formed term for each check -/

theorem zeros_too_long {n : Nat} (h : 65536 ≤ n) : decide ((List.replicate n (0#8 : Byte)).length < 65536) = false := by
  simp [h]

theorem test_wf_crc16_len (n : Nat) (h : n = 65536) : (Instr.crc16 (List.replicate n 0#8)).wf (par 135#8) = false :=
  zeros_too_long (Nat.le_of_eq h.symm)
theorem test_wf_encode_len (n : Nat) (h : n = 65536) :
    (Instr.encode 0#8 0#8 0#16 (List.replicate n 0#8)).wf (par 135#8) = false :=
  zeros_too_long (Nat.le_of_eq h.symm)
theorem test_wf_outFrame_count : (Instr.outFrame 0#8 0#8 0#16 (List.replicate 129 0#8)).wf (par 135#8) = false := by
  decide +kernel
theorem test_wf_inFrame_length : (Instr.inFrame (List.replicate 126 0#8)).wf (par 135#8) = false := by decide +kernel
theorem test_wf_inFrame_signal : (Instr.inFrame [0x11#8]).wf (par 135#8) = false := by decide +kernel

/-! ### Decoding: words written from R80, R81, R70, R72, R74, R75 -/

/-- op 0x10, F0. -/
theorem test_word_crcClr : decodeTableWord 8 0x10 = some .crcClr := by decide +kernel
/-- op 0x11, then d at bit 8. -/
theorem test_word_crcShift : decodeTableWord 16 0x111 = some (.crcShift true) := by decide +kernel
/-- op 0x12, then b. -/
theorem test_word_crcByte : decodeTableWord 16 0xA512 = some (.crcByte 0xA5#8) := by decide +kernel
/-- op 0x13, then len = 2, then 04 11. -/
theorem test_word_crc16 : decodeTableWord 40 0x1104000213 = some (.crc16 [0x04#8, 0x11#8]) := by decide +kernel
theorem test_word_wake : decodeTableWord 8 0x20 = some .wake := by decide +kernel
theorem test_word_idle : decodeTableWord 8 0x21 = some .idle := by decide +kernel
theorem test_word_sleep : decodeTableWord 8 0x22 = some .sleep := by decide +kernel
/-- op 0x30, opcode A5, param1 80, param2 1234, len = 1, then DE. -/
theorem test_word_encode :
    decodeTableWord 64 0xDE0001123480A530 = some (.encode 0xA5#8 0x80#8 0x1234#16 [0xDE#8]) := by decide +kernel
theorem test_word_decode : decodeTableWord 8 0x31 = some .decode := by decide +kernel
theorem test_word_transmit : decodeTableWord 8 0x40 = some .transmit := by decide +kernel
theorem test_word_receive : decodeTableWord 16 0x2341 = some (.receive 0x23#8) := by decide +kernel
/-- The pattern 0x04113343 of the table, byte 0 most significant. -/
theorem test_word_wakeResponse : decodeTableWord 32 0x04113343 = some .wakeResponse := by decide +kernel
/-- V21: `03 0B A5 80 34 12 DE AD BE EF B4 F8` written to the device. -/
theorem test_bytes_outFrame : (decode (par 135#8) 0x60#7 (.busWrite 0x60#7 [0x03#8, 0x0B#8, 0xA5#8, 0x80#8, 0x34#8, 0x12#8,
    0xDE#8, 0xAD#8, 0xBE#8, 0xEF#8, 0xB4#8, 0xF8#8])).toOption =
    some (.outFrame 0xA5#8 0x80#8 0x1234#16 [0xDE#8, 0xAD#8, 0xBE#8, 0xEF#8]) := by decide +kernel
/-- V36: `07 00 00 50 00 03 91` read from the device. -/
theorem test_bytes_inFrame : (decode (par 135#8) 0x60#7 (.busRead [0x07#8, 0x00#8, 0x00#8, 0x50#8, 0x00#8, 0x03#8,
    0x91#8])).toOption = some (.inFrame [0x00#8, 0x00#8, 0x50#8, 0x00#8]) := by decide +kernel
/-- R74, with PFX_IDLE = 02. -/
theorem test_bytes_ctrlIdle : (decode (par 135#8) 0x60#7 (.busWrite 0x60#7 [0x02#8])).toOption = some .ctrlIdle := by
  decide +kernel
/-- R74, with PFX_SLEEP = 01. -/
theorem test_bytes_ctrlSleep : (decode (par 135#8) 0x60#7 (.busWrite 0x60#7 [0x01#8])).toOption = some .ctrlSleep := by
  decide +kernel
/-- R75: no bytes to WAKE_ADDR = 00. -/
theorem test_bytes_wakePulse : (decode (par 135#8) 0x60#7 (.busWrite 0x00#7 [])).toOption = some .wakePulse := by
  decide +kernel
/-- The source's misprinted wake response (C1) has a wrong CRC and is no frame. -/
theorem test_bytes_misprint : (decode (par 135#8) 0x60#7 (.busRead [0x04#8, 0x11#8, 0x33#8, 0x44#8])).toOption = none := by
  decide +kernel

/-! ### The CRC unit -/

/-- R100's example: 0x4333 before, 0x0000 after. -/
theorem test_crcClr : after .crcClr { start [] [] with crcReg := 0x4333#16 } (·.crcReg) = some 0x0000#16 := by decide +kernel
/-- V1: FFFF with 0 gives 7FFB. -/
theorem test_crcShift_xor : after (.crcShift false) { start [] [] with crcReg := 0xFFFF#16 } (·.crcReg) = some 0x7FFB#16 := by
  decide +kernel
/-- V1: 8000 with 1 gives 0000. -/
theorem test_crcShift_same : after (.crcShift true) { start [] [] with crcReg := 0x8000#16 } (·.crcReg) = some 0x0000#16 := by
  decide +kernel
/-- V3: 80C3 with 11 gives 4333. -/
theorem test_crcByte : after (.crcByte 0x11#8) { start [] [] with crcReg := 0x80C3#16 } (·.crcReg) = some 0x4333#16 := by
  decide +kernel
/-- V3: FFFF with 00 gives FD02. -/
theorem test_crcByte_zero : after (.crcByte 0x00#8) { start [] [] with crcReg := 0xFFFF#16 } (·.crcReg) = some 0xFD02#16 := by
  decide +kernel
/-- V4: 31 to 39 gives (DD, BC). -/
theorem test_crc16 : after (.crc16 [0x31#8, 0x32#8, 0x33#8, 0x34#8, 0x35#8, 0x36#8, 0x37#8, 0x38#8, 0x39#8])
    { start [] [] with crcReg := 0xFFFF#16 } (·.output) = some (.crc ⟨0xDD#8, 0xBC#8⟩) := by decide +kernel
/-- V4: the empty sequence gives (00, 00). -/
theorem test_crc16_empty : after (.crc16 []) { start [] [] with crcReg := 0xFFFF#16 } (·.output) =
    some (.crc ⟨0x00#8, 0x00#8⟩) := by decide +kernel

/-! ### WAKE, IDLE, SLEEP -/

/-- V12: `04`, nothing, `11 33 43`: three reads of 4, 3, 3; STATUS 40. -/
theorem test_wake_short_reads : after .wake (start [.ok] (answers [[0x04#8], [], [0x11#8, 0x33#8, 0x43#8]]))
    (fun t => (t.status, t.attempts, t.lastCrc)) = some (0x40#8, 3#5, ⟨0x33#8, 0x43#8⟩) := by decide +kernel
/-- V17: `05 11 3A C3` is CountMismatch, STATUS 03, and `last_crc` is not written. -/
theorem test_wake_count : after .wake { start [.ok] (answers [[0x05#8, 0x11#8, 0x3A#8, 0xC3#8]]) with lastCrc := ⟨1#8, 2#8⟩ }
    (fun t => (t.status, t.lastCrc)) = some (0x03#8, ⟨1#8, 2#8⟩) := by decide +kernel
/-- V51: from AwaitingResponse, STATUS 20. -/
theorem test_idle : after .idle { start [.ok] [] with ps := .awaitingResponse } (fun t => (t.status, t.trace)) =
    some (0x20#8, [.wr 0x60#7 [0x02#8] .ok]) := by decide +kernel
/-- V52: the write fails, `ps` stays Ready, STATUS 41. -/
theorem test_idle_err : after .idle { start [.err] [] with ps := .ready } (·.status) = some 0x41#8 := by decide +kernel
/-- V54: the idle write fails and the sleep byte is not sent. -/
theorem test_sleep_first_err : after .sleep { start [.err, .ok] [] with ps := .ready } (fun t => (t.status, t.trace)) =
    some (0x41#8, [.wr 0x60#7 [0x02#8] .err]) := by decide +kernel
/-- V55: the sleep write fails, `ps` is Idle, STATUS 21. -/
theorem test_sleep_second_err : after .sleep { start [.ok, .err] [] with ps := .ready } (fun t => (t.status, t.trace)) =
    some (0x21#8, [.wr 0x60#7 [0x02#8] .ok, .wr 0x60#7 [0x01#8] .err]) := by decide +kernel

/-! ### ENCODE, DECODE -/

/-- V25: `03 08 47 01 FF 00 5A 0D 20`. -/
theorem test_encode : after (.encode 0x47#8 0x01#8 0x00FF#16 [0x5A#8]) (start [] [])
    (fun t => (t.txSlice 0 9, t.txLen, t.lastCrc)) = some ([0x03#8, 0x08#8, 0x47#8, 0x01#8, 0xFF#8, 0x00#8, 0x5A#8, 0x0D#8,
      0x20#8], 9#9, ⟨0x0D#8, 0x20#8⟩) := by decide +kernel
/-- The limit of R142 with MAX_TRANSFER = 135: 129 data bytes are too many, STATUS 06, `tx_len` 0. -/
theorem test_encode_large : after (.encode 0x45#8 0x02#8 0x0004#16 (List.replicate 129 0xAA#8))
    { start [] [] with txLen := 12#9 } (fun t => (t.status, t.txLen, t.txbuf)) = some (0x06#8, 0#9, []) := by decide +kernel
/-- V35: 32 payload bytes, CRC (70, FA). -/
theorem test_decode : after .decode (received (start [] []) frame35 35#8) (fun t => (t.output, t.lastCrc)) =
    some (.payload ((List.range 32).map (BitVec.ofNat 8)), ⟨0x70#8, 0xFA#8⟩) := by decide +kernel
/-- V32b: a wrong low CRC byte; the recomputed pair is stored. -/
theorem test_decode_crc : after .decode (received (start [] []) [0x04#8, 0x00#8, 0x04#8, 0x40#8] 4#8)
    (fun t => (t.err, t.lastCrc)) = some (.crcMismatch, ⟨0x03#8, 0x40#8⟩) := by decide +kernel

/-! ### TRANSMIT, RECEIVE -/

/-- V40 on the frame of V20: one write of the whole frame. -/
theorem test_transmit : (match execAll [.encode 0x30#8 0x00#8 0x0000#16 [], .transmit] { start [.ok] [] with ps := .ready } with
    | .next t => some (t.status, t.trace)
    | .fault _ => none
    | .refused _ => none) = some (0x60#8,
      [.wr 0x60#7 [0x03#8, 0x07#8, 0x30#8, 0x00#8, 0x00#8, 0x00#8, 0x03#8, 0x5D#8] .ok]) := by decide +kernel
/-- R160, U4: refused with `tx_len` = 0. -/
theorem test_transmit_none : after .transmit (start [.ok] []) (·.status) = none := by decide +kernel
/-- V43: answers of 10, 0 and 25 bytes; it asks 32, 25, 25. -/
theorem test_receive : after (.receive 35#8)
    { start [] (answers [frame35.take 10, [], frame35.drop 10]) with ps := .awaitingResponse }
    (fun t => (t.status, t.rxSlice 0 36, t.trace.map fun e => match e with | .rd _ m _ => m | _ => 0)) =
    some (0x40#8, frame35 ++ [0xFF#8], [32, 25, 25]) := by decide +kernel
/-- V4C: 127 bytes, then 200: the total saturates at 255, `overflow` is set, the first 128 are stored. -/
theorem test_receive_overflow : after (.receive 128#8)
    { start [] (answers [List.replicate 127 0x55#8, List.replicate 200 0x66#8]) with ps := .awaitingResponse }
    (fun t => (t.rxTotal, t.overflow, t.ps, t.readRx 127)) = some (255#8, true, .ready, 0x66#8) := by decide +kernel

/-! ### The wire formats alone -/

/-- V22's frame as a bus transfer: it is the write and no register changes. -/
theorem test_outFrame : after (.outFrame 0x17#8 0x80#8 0x0000#16 []) (start [.err] []) (fun t => (t.status, t.trace)) =
    some (0x00#8, [.wr 0x60#7 [0x03#8, 0x07#8, 0x17#8, 0x80#8, 0x00#8, 0x00#8, 0x39#8, 0x8D#8] .err]) := by decide +kernel
/-- V30's frame comes to stand on the bus. -/
theorem test_inFrame : after (.inFrame [0x00#8]) (start [] []) (·.readAnswers) =
    some [.frame [0x04#8, 0x00#8, 0x03#8, 0x40#8]] := by decide +kernel
theorem test_ctrlIdle : after .ctrlIdle (start [.ok] []) (·.trace) = some [.wr 0x60#7 [0x02#8] .ok] := by decide +kernel
theorem test_ctrlSleep : after .ctrlSleep (start [.ok] []) (·.trace) = some [.wr 0x60#7 [0x01#8] .ok] := by decide +kernel
theorem test_wakePulse : after .wakePulse (start [.err] []) (·.trace) = some [.wr 0x00#7 [] .err] := by decide +kernel
theorem test_wakeResponse : after .wakeResponse (start [] []) (·.readAnswers) =
    some [.frame [0x04#8, 0x11#8, 0x33#8, 0x43#8]] := by decide +kernel

/-! ### The step -/

/-- A word placed where the step takes its next input is what the step runs, from reset. -/
theorem test_step_word : (match step (State.reset.withFetchWord 16 0x0412) with
    | .next t => some (t.crcReg, t.inputs)
    | .fault _ => none
    | .refused _ => none) = some (0x80C3#16, []) := by decide +kernel
/-- R82: op 0x14 is unassigned. -/
theorem test_step_unassigned : (match step (given (start [] []) (.request ⟨0x14#8, .f0⟩)) with
    | .refused r => some r
    | .fault _ => none
    | .next _ => none) = some (.undecodable (.unassignedOperation 0x14#8)) := by decide +kernel

/-! ### The host's transaction -/

/-- V60: everything succeeds. -/
theorem test_xact_v60 :
    (let x := xact lockCommand 32000 4#8 .status
      (start [.ok, .ok, .ok] (answers [wakeResponseBytes, [0x04#8, 0x00#8, 0x03#8, 0x40#8]]))
     (x.reply, x.block.status, x.block.lastCrc, x.block.trace.length)) =
    (.ok [], 0x20#8, ⟨0x03#8, 0x40#8⟩, 7) := by decide +kernel
/-- V67: the idle write fails after a response with a wrong CRC: BusError. -/
theorem test_xact_v67 :
    (let x := xact lockCommand 32000 4#8 .status
      (start [.ok, .ok, .err] (answers [wakeResponseBytes, [0x04#8, 0x00#8, 0x03#8, 0x41#8]]))
     (x.reply, x.block.status, x.block.lastCrc)) = (.error .busError, 0x41#8, ⟨0x33#8, 0x43#8⟩) := by decide +kernel
/-- V64: the wake fails by its signal byte, the host idles the device. -/
theorem test_xact_v64 :
    (let x := xact lockCommand 32000 4#8 .status (start [.ok, .ok] (answers [[0x04#8, 0x12#8, 0xB3#8, 0x41#8]]))
     (x.reply, x.block.status, x.block.lastCrc, x.block.trace.getLast?)) =
    (.error .noResponse, 0x20#8, ⟨0x39#8, 0x8D#8⟩, some (.wr 0x60#7 [0x02#8] .ok)) := by decide +kernel

/-! ### Witnesses: a state and operands that meet the hypotheses of each statement -/

/-- What `exec` gives is a next state. -/
def runs (i : Instr) (s : State) : Bool :=
  match exec i s with
  | .next _ => true
  | .fault _ => false
  | .refused _ => false

theorem next_of_runs {i : Instr} {s : State} {P : State → Prop} (h : ∀ t, exec i s = .next t → P t) (r : runs i s = true) :
    ∃ t, exec i s = .next t ∧ P t := by
  unfold runs at r
  cases e : exec i s with
  | next t => exact ⟨t, rfl, h t e⟩
  | fault f => rw [e] at r; cases r
  | refused f => rw [e] at r; cases r

/-- The least, a middling and the greatest MAX_TRANSFER of R12. -/
theorem witness_params : (par 7#8).Legal ∧ (par 135#8).Legal ∧ (par 255#8).Legal := by decide +kernel

theorem witness_DecodeInvertsEncode : (par 135#8).Legal ∧
    (Instr.outFrame 0x45#8 0x02#8 0x0004#16 (List.replicate 128 0xAA#8)).wf (par 135#8) = true ∧
    (Instr.inFrame []).wf (par 135#8) = true ∧ (Instr.inFrame (List.replicate 125 0xAA#8)).wf (par 135#8) = true ∧
    (Instr.crc16 []).wf (par 135#8) = true ∧ (Instr.encode 0#8 0#8 0#16 [0#8]).wf (par 135#8) = true ∧
    Instr.wakeResponse.wf (par 135#8) = true := by decide +kernel

/-- V34: the shortest inbound frame. -/
theorem witness_EncodeInvertsDecode : ∃ i, decode (par 135#8) 0x60#7 (.busRead [0x03#8, 0x80#8, 0x02#8]) = .ok i :=
  ⟨.inFrame [], by rfl⟩

theorem witness_UnassignedOperationRefused :
    (given (start [] []) (.request ⟨0x0F#8, .f0⟩)).inputs = .request ⟨0x0F#8, .f0⟩ :: [] ∧
    (0x0F#8 : Byte) ∉ [0x10#8, 0x11#8, 0x12#8, 0x13#8, 0x20#8, 0x21#8, 0x22#8, 0x30#8, 0x31#8, 0x40#8, 0x41#8] ∧
    (0x14#8 : Byte) ∉ [0x10#8, 0x11#8, 0x12#8, 0x13#8, 0x20#8, 0x21#8, 0x22#8, 0x30#8, 0x31#8, 0x40#8, 0x41#8] ∧
    (0x42#8 : Byte) ∉ [0x10#8, 0x11#8, 0x12#8, 0x13#8, 0x20#8, 0x21#8, 0x22#8, 0x30#8, 0x31#8, 0x40#8, 0x41#8] := by
  decide +kernel

theorem witness_StepRunsDecodedInstruction : ∃ i,
    (given (start [] []) (.request ⟨0x41#8, .f2 0x23#8⟩)).inputs = .request ⟨0x41#8, .f2 0x23#8⟩ :: [] ∧
    decode (given (start [] []) (.request ⟨0x41#8, .f2 0x23#8⟩)).cfg (given (start [] []) (.request ⟨0x41#8, .f2 0x23#8⟩)).devAddr
      (.request ⟨0x41#8, .f2 0x23#8⟩) = .ok i := ⟨.receive 0x23#8, rfl, rfl⟩

theorem witness_StepWithoutInputDoesNothing : State.reset.inputs = [] := rfl

/-- A `len` field that fits its bytes. -/
theorem witness_Crc16IsClearThenBytes : [0x04#8, 0x11#8].length = (2#16).toNat := by decide

theorem witness_Crc16DependsOnDataAlone : ∃ t t', exec (.crc16 [0x04#8]) (start [] []) = .next t ∧
    exec (.crc16 [0x04#8]) { start [] [] with crcReg := 0xFFFF#16 } = .next t' := ⟨_, _, rfl, rfl⟩

theorem witness_Crc16Linear : ∃ t ta tb, [0x12#8, 0x34#8, 0x56#8].length = [0xF0#8, 0x0F#8, 0xAA#8].length ∧
    exec (.crc16 (List.zipWith (· ^^^ ·) [0x12#8, 0x34#8, 0x56#8] [0xF0#8, 0x0F#8, 0xAA#8])) (start [] []) = .next t ∧
    exec (.crc16 [0x12#8, 0x34#8, 0x56#8]) (start [] []) = .next ta ∧
    exec (.crc16 [0xF0#8, 0x0F#8, 0xAA#8]) (start [] []) = .next tb := ⟨_, _, _, rfl, rfl, rfl, rfl⟩

/-- Both outcomes at the boundary: 128 data bytes fit MAX_TRANSFER = 135, 129 do not. -/
theorem witness_EncodeBuildsFrame : 7 + (List.replicate 128 0xAA#8).length ≤ (start [] []).cfg.maxTransfer.toNat ∧
    (start [] []).cfg.maxTransfer.toNat < 7 + (List.replicate 129 0xAA#8).length := by decide +kernel

/-- The clauses at their boundary values: 2 and 129 bytes, a wrong count; V34b; V34 and V37. -/
theorem witness_DecodeChecksCountThenCrc :
    (received (start [] []) [0x02#8, 0x00#8] 2#8).rxTotal.toNat < 3 ∧
    128 < (received (start [] []) [] 129#8).rxTotal.toNat ∧
    ((received (start [] []) [0x05#8, 0x00#8, 0x0A#8, 0xC0#8] 4#8).readRx 0).toNat ≠ 4 ∧
    (let s := received (start [] []) [0x03#8, 0x80#8, 0x03#8] 3#8
     (s.readRx 0).toNat = 3 ∧ s.readRx (3 - 1) ≠ (crc16Of (s.rxSlice 0 (3 - 2))).hi) ∧
    (let s := received (start [] []) [0x03#8, 0x80#8, 0x02#8] 3#8
     (s.readRx 0).toNat = 3 ∧ s.readRx (3 - 2) = (crc16Of (s.rxSlice 0 (3 - 2))).lo ∧
       s.readRx (3 - 1) = (crc16Of (s.rxSlice 0 (3 - 2))).hi) := by decide +kernel

theorem received_readRx (s : State) (bs : List Byte) (total : Byte) {k : Nat} (h : k < bs.length) (hb : bs.length ≤ 128) :
    (received s bs total).readRx k = bs[k] := by
  rw [State.readRx, received, Memory.find_map_range, if_pos (by omega)]
  simp [h]

theorem received_rxSlice (s : State) (bs : List Byte) (total : Byte) (hb : bs.length ≤ 128) :
    (received s bs total).rxSlice 0 bs.length = bs := by
  apply State.rxSlice_eq
  intro k hk
  rw [Nat.zero_add, received, Memory.find_map_range, if_pos (by omega)]
  simp [hk]

theorem longest_frame_passes (p : List Byte) (hp : p.length = 125) :
    (let s := received (start [] []) (inFrameBytes p) 128#8
     s.rxTotal.toNat = 128 ∧ (s.readRx 0).toNat = 128 ∧ s.readRx (128 - 2) = (crc16Of (s.rxSlice 0 (128 - 2))).lo ∧
       s.readRx (128 - 1) = (crc16Of (s.rxSlice 0 (128 - 2))).hi) := by
  have hl : (inFrameBytes p).length = 128 := by simp [hp]
  have hs : (received (start [] []) (inFrameBytes p) 128#8).rxSlice 0 (128 - 2) = inBody p := by
    rw [State.rxSlice_sub _ 0 (128 - 2) (m := (inFrameBytes p).length) (by omega), received_rxSlice _ _ _ (by omega),
      List.drop_zero, inFrameBytes, List.take_left']
    simp [hp]
  refine ⟨rfl, ?_, ?_, ?_⟩
  · rw [received_readRx _ _ _ (by omega) (by omega)]; simp [inFrameBytes, inBody, hp]
  · rw [hs, received_readRx _ _ _ (by omega) (by omega)]
    simp [inFrameBytes, hp, CrcPair.bytes]
  · rw [hs, received_readRx _ _ _ (by omega) (by omega)]
    simp [inFrameBytes, hp, CrcPair.bytes]

/-- V37: the longest frame, 128 bytes with 125 bytes AA of payload, passes both tests. -/
theorem witness_DecodeChecksCountThenCrc_longest :
    (let s := received (start [] []) (inFrameBytes (List.replicate 125 0xAA#8)) 128#8
     s.rxTotal.toNat = 128 ∧ (s.readRx 0).toNat = 128 ∧ s.readRx (128 - 2) = (crc16Of (s.rxSlice 0 (128 - 2))).lo ∧
       s.readRx (128 - 1) = (crc16Of (s.rxSlice 0 (128 - 2))).hi) :=
  longest_frame_passes _ List.length_replicate

theorem witness_DecodeRepeats : ∃ t, exec .decode (received (start [] []) [0x03#8, 0x80#8, 0x02#8] 3#8) = .next t := ⟨_, rfl⟩

/-- What ENCODE left, without its prefix, in the reassembly buffer. -/
theorem encoded_received (data : List Byte) (h : data.length = 4 ∨ data.length = 121) : ∃ e r : State,
    data.length ≤ 121 ∧ 7 + data.length ≤ (start [] []).cfg.maxTransfer.toNat ∧
    exec (.encode 0xA5#8 0x80#8 0x1234#16 data) (start [] []) = .next e ∧ r.rxTotal.toNat = 7 + data.length ∧
    r.rxSlice 0 (7 + data.length) = e.txSlice 1 (7 + data.length) := by
  have hm : (start [] []).cfg.maxTransfer.toNat = 135 := rfl
  refine ⟨runEncode 0xA5#8 0x80#8 0x1234#16 data (start [] []), received (start [] [])
    ((runEncode 0xA5#8 0x80#8 0x1234#16 data (start [] [])).txSlice 1 (7 + data.length)) (BitVec.ofNat 8 (7 + data.length)),
    by omega, by omega, rfl, ?_, ?_⟩
  · show (BitVec.ofNat 8 (7 + data.length)).toNat = 7 + data.length
    simp only [BitVec.toNat_ofNat]; omega
  · have := received_rxSlice (start [] []) ((runEncode 0xA5#8 0x80#8 0x1234#16 data (start [] [])).txSlice 1 (7 + data.length))
      (BitVec.ofNat 8 (7 + data.length)) (by rw [State.txSlice_length]; omega)
    rwa [State.txSlice_length] at this

/-- S4's data. -/
theorem witness_CodecRoundTrip : ∃ (data : List Byte) (e r : State), data.length = 4 ∧
    data.length ≤ 121 ∧ 7 + data.length ≤ (start [] []).cfg.maxTransfer.toNat ∧
    exec (.encode 0xA5#8 0x80#8 0x1234#16 data) (start [] []) = .next e ∧ r.rxTotal.toNat = 7 + data.length ∧
    r.rxSlice 0 (7 + data.length) = e.txSlice 1 (7 + data.length) :=
  have h : [0xDE#8, 0xAD#8, 0xBE#8, 0xEF#8].length = 4 := rfl
  ⟨[0xDE#8, 0xAD#8, 0xBE#8, 0xEF#8], (encoded_received _ (.inl h)).imp fun _ => .imp fun _ => .intro h⟩

/-- The longest data, 121 bytes. -/
theorem witness_CodecRoundTrip_longest : ∃ (data : List Byte) (e r : State), data.length = 121 ∧
    data.length ≤ 121 ∧ 7 + data.length ≤ (start [] []).cfg.maxTransfer.toNat ∧
    exec (.encode 0xA5#8 0x80#8 0x1234#16 data) (start [] []) = .next e ∧ r.rxTotal.toNat = 7 + data.length ∧
    r.rxSlice 0 (7 + data.length) = e.txSlice 1 (7 + data.length) := by
  obtain ⟨data, h⟩ : ∃ data : List Byte, data.length = 121 := ⟨List.replicate 121 0x5A#8, List.length_replicate ..⟩
  exact ⟨data, (encoded_received data (.inr h)).imp fun _ => .imp fun _ => .intro h⟩

theorem witness_CountIsFrameLength :
    (∃ t, exec (.encode 0xA5#8 0x80#8 0x1234#16 []) (start [] []) = .next t ∧ t.err = .ok) ∧
    (∃ t, exec .decode (received (start [] []) [0x03#8, 0x80#8, 0x02#8] 3#8) = .next t ∧ t.err = .ok) :=
  ⟨⟨_, rfl, by decide +kernel⟩, ⟨_, rfl, by decide +kernel⟩⟩

theorem witness_TransmitSendsFrame : (start [] []).txLen = 0#9 ∧ ({ start [.ok] [] with txLen := 8#9 } : State).txLen ≠ 0#9 ∧
    ({ start [.ok] [] with txLen := 8#9 } : State).nextAck = .ok ∧
    ({ start [.err] [] with txLen := 256#9 } : State).nextAck = .err := by decide +kernel

theorem witness_TransmitSendsWhatEncodeWrote :
    7 + (List.replicate 128 0xAA#8).length ≤ (start [.ok] []).cfg.maxTransfer.toNat := by decide +kernel

/-- A read answered in full and one answered short keep the contract. -/
theorem witness_ContractMeansNoOverflow : ∃ t, exec (.receive 4#8) (start [] (answers [[0x04#8, 0x00#8], [0x03#8, 0x40#8]])) =
    .next t ∧ KeepsContractSince (start [] (answers [[0x04#8, 0x00#8], [0x03#8, 0x40#8]])) t := by
  refine ⟨_, rfl, ?_⟩
  have h : (runReceive 4#8 (start [] (answers [[0x04#8, 0x00#8], [0x03#8, 0x40#8]]))).trace =
      [.rd 0x60#7 4 (.bytes [0x04#8, 0x00#8]), .rd 0x60#7 2 (.bytes [0x03#8, 0x40#8])] := by decide +kernel
  unfold KeepsContractSince
  rw [h]
  show ∀ e ∈ [Event.rd 0x60#7 4 (.bytes [0x04#8, 0x00#8]), .rd 0x60#7 2 (.bytes [0x03#8, 0x40#8])], e.KeepsContract
  intro e he
  simp only [List.mem_cons, List.not_mem_nil, or_false] at he
  rcases he with rfl | rfl <;> simp [Event.KeepsContract]

/-- One byte; and 128 bytes against a request for 200. -/
theorem witness_ReceiveWholeFrame : (start [] [.frame [0x55#8]]).readAnswers = .frame [0x55#8] :: [] ∧
    [0x55#8].length = min (1#8 : Byte).toNat 128 ∧ (List.replicate 128 0x55#8).length = min (200#8 : Byte).toNat 128 := by
  decide +kernel

theorem witness_ReceiveExhausts : (1#8 : Byte) ≠ 0#8 ∧ (start [] (List.replicate 20 (.answer (.bytes [])))).readAnswers =
    List.replicate 20 (.answer (.bytes [])) ++ [] := by decide +kernel

theorem witness_WakeOutcomeByBytes : (start [.err] [.frame [0x04#8, 0x11#8, 0x33#8, 0x44#8]]).readAnswers =
    .frame [0x04#8, 0x11#8, 0x33#8, 0x44#8] :: [] := by decide +kernel

theorem witness_IdleSendsIdleByte : (start [.ok] []).nextAck = .ok ∧ (start [.err] []).nextAck = .err := by decide +kernel

theorem witness_SleepSendsIdleThenSleep : (start [.err] []).nextAck = .err ∧
    (start [.ok, .ok] []).nextAck = .ok ∧ (start [.ok, .ok] []).dropAck.nextAck = .ok ∧
    (start [.ok, .err] []).nextAck = .ok ∧ (start [.ok, .err] []).dropAck.nextAck = .err := by decide +kernel

theorem witness_InboundFrameIsDecoded : (List.replicate 125 0xAA#8).length + 3 ≤ 128 ∧ (start [] []).readAnswers = [] := by
  decide +kernel

/-- DECODE may write neither buffer nor `ps`, IDLE no register of the CRC unit or the transfer engine. -/
theorem witness_AccessMatrix :
    (∃ t, exec .decode (start [] []) = .next t ∧ [.rxbuf, .rxTotal, .rxExpected, .attempts, .exhausted, .overflow, .ps,
      .txbuf, .txLen].all (fun r => !writesRegister .decode r) = true) ∧
    (∃ t, exec .idle (start [.ok] []) = .next t ∧ [.crcReg, .lastCrc].all (fun r => !writesRegister .idle r) = true) ∧
    (∃ t, exec .ctrlIdle (start [.ok] []) = .next t ∧ writesRegister .ctrlIdle .err = false) :=
  ⟨⟨_, rfl, by decide⟩, ⟨_, rfl, by decide⟩, ⟨_, rfl, by decide⟩⟩

theorem witness_TraceOnlyGrows : ∃ t, exec .decode (start [] []) = .next t ∧ usesBus .decode = false :=
  ⟨_, rfl, by decide⟩

theorem witness_PowerStateTransitions : ∃ t, exec .idle (start [.ok] []) = .next t := ⟨_, rfl⟩

theorem witness_ResultCodesByOperation : ∃ t, exec .idle (start [.ok] []) = .next t ∧ isOperation .idle = true :=
  ⟨_, rfl, by decide⟩

theorem witness_CommandNeedsWake : ∃ t, exec .wake (start [.ok] [.frame wakeResponseBytes]) = .next t ∧
    legalBefore .wake (start [.ok] [.frame wakeResponseBytes]).ps = true ∧
    (start [.ok] [.frame wakeResponseBytes]).ps = .sleeping := ⟨_, rfl, by decide +kernel, rfl⟩

/-- A block after reset with an IDLE request at its host port: it meets the invariant. -/
def idleRequested : State := given (start [.ok] []) (.request ⟨0x21#8, .f0⟩)

theorem idleRequested_inv : idleRequested.Inv where
  cfgLegal := by decide +kernel
  rxWf := Memory.nil_wf _
  txWf := Memory.nil_wf _
  rxFilled := .inl ⟨rfl, rfl⟩
  txFramed := .inl rfl
  expectedRange := by decide +kernel
  attemptsRange := by decide +kernel
  exhaustedMeans := fun h => nomatch h
  overflowMeans := by decide +kernel
  errOfBlock := ⟨by decide +kernel, by decide +kernel⟩

theorem witness_StepKeepsInvariant : ∃ t, idleRequested.Inv ∧ idleRequested.TraceFromBlock ∧ step idleRequested = .next t :=
  ⟨_, idleRequested_inv, fun e h => absurd (show e ∈ ([] : List Event) from h) (List.not_mem_nil), rfl⟩

theorem witness_StepSendsOnlyListedFormats :
    ∃ t, idleRequested.Inv ∧ idleRequested.TraceFromBlock ∧ step idleRequested = .next t := witness_StepKeepsInvariant

theorem witness_LastCrcFollowsCodec : ∃ t, exec .decode (received (start [] []) [0x03#8, 0x80#8, 0x02#8] 3#8) = .next t ∧
    t.lastCrc ≠ (received (start [] []) [0x03#8, 0x80#8, 0x02#8] 3#8).lastCrc := ⟨_, rfl, by decide +kernel⟩

/-- V60. -/
theorem witness_XactRunsOperations : (xact lockCommand 32000 4#8 .status
    (start [.ok, .ok, .ok] (answers [wakeResponseBytes, [0x04#8, 0x00#8, 0x03#8, 0x40#8]]))).reply = .ok [] := by
  decide +kernel

theorem witness_XactSuccessTrace :
    (let s := start [.err, .ok, .ok] [.frame wakeResponseBytes, .frame (inFrameBytes [0x00#8])]
     7 + lockCommand.data.length ≤ s.cfg.maxTransfer.toNat ∧ [0x00#8].length + 3 ≤ 128 ∧
       s.writeAnswers = .err :: .ok :: .ok :: [] ∧
       s.readAnswers = .frame wakeResponseBytes :: .frame (inFrameBytes [0x00#8]) :: []) := by decide +kernel

theorem witness_XactTooLargeTouchesNoBus :
    (start [] []).cfg.maxTransfer.toNat < 7 + (⟨0x45#8, 0x02#8, 0x0004#16, List.replicate 129 0xAA#8⟩ : Command).data.length := by
  decide +kernel

/-- V62: a response with a wrong CRC. -/
theorem witness_XactEndsIdle : (xact lockCommand 32000 4#8 .status
    (start [.ok, .ok, .ok] (answers [wakeResponseBytes, [0x04#8, 0x00#8, 0x03#8, 0x41#8]]))).reply =
    .error .crcMismatch := by decide +kernel

/-- V66: the frame write answers `err`. V68: the wake read answers `err`. -/
theorem witness_XactBusErrorSendsNoMore :
    (xact lockCommand 32000 4#8 .status (start [.ok, .err] (answers [wakeResponseBytes]))).reply = .error .busError ∧
    (xact lockCommand 32000 4#8 .status (start [.ok] [.answer .err])).reply = .error .busError := by decide +kernel

/-- S6: 31 and 33; and 0, 5. -/
theorem witness_ZoneLengthCheckedFirst : (31 ≠ 4 ∧ 31 ≠ 32) ∧ (33 ≠ 4 ∧ 33 ≠ 32) ∧ (5 ≠ 4 ∧ 5 ≠ 32) ∧
    (([] : List Byte).length ≠ 4 ∧ ([] : List Byte).length ≠ 32) := by decide

/-- The values of 93_implementation_defined.md G2 and G3 with a delay of 32 ms for every command, as one host program's
arguments (from general knowledge there; no statement rests on them). -/
def catalogue : Catalogue where
  opInfo := 0x30#8
  opLock := 0x17#8
  opRandom := 0x1B#8
  opRead := 0x02#8
  opWrite := 0x12#8
  opGenKey := 0x40#8
  opNonce := 0x16#8
  opSign := 0x41#8
  opVerify := 0x45#8
  opSha := 0x47#8
  tExec := fun _ => 32000
  infoRevision := 0x00#8
  infoParam2 := 0x0000#16
  infoData := []
  infoPayloadLen := 4
  lockFields := fun z => match z with
    | .config => (0x80#8, 0#16)
    | .dataAndOtp => (0x81#8, 0#16)
    | .slot0 => (0x82#8, 0#16)
  randomFields := (0x00#8, 0x0000#16)
  zoneBits := fun z => match z with
    | .config => 0#7
    | .otp => 1#7
    | .data => 2#7
  readFields := fun z a => (z, BitVec.ofNat 16 a)
  writeFields := fun z a => (z, BitVec.ofNat 16 a)
  genKeyCreate := 0x04#8
  genKeyPublic := 0x00#8
  genKeyFields := fun m s => (m, BitVec.ofNat 16 s.val)
  noncePassthrough := 0x03#8
  nonceFields := fun m => (m, 0#16)
  signMode := 0x80#8
  signFields := fun m s => (m, BitVec.ofNat 16 s.val)
  verifyExternalMode := 0x02#8
  verifyStoredMode := 0x00#8
  verifyExternalFields := fun m => (m, 4#16)
  verifyStoredFields := fun m s => (m, BitVec.ofNat 16 s.val)
  shaStart := 0x00#8
  shaUpdate := 0x01#8
  shaEnd := 0x02#8
  shaFields := fun m => (m, 0#16)
  configAddress := fun j => 8 * j

/-- The host over a block whose transport does as given. -/
def host (writes : List Ack) (reads : List Pending) (loaded : Bool) : HostState :=
  { block := start writes reads, tempkeyLoaded := loaded, snapshot := none, stale := false }

/-- `sign` with nothing loaded; a `sign` whose frame never left keeps the bit; a transmitted verify. -/
theorem witness_TempKeyIsSingleUse : (host [] [] false).tempkeyLoaded = false ∧
    (sign catalogue 0 (host [.ok] [.answer .err] true)).2.tempkeyLoaded = true ∧
    ((host [.ok, .ok, .ok] (answers [wakeResponseBytes, [0x04#8, 0x00#8, 0x03#8, 0x40#8]]) true).run catalogue
      ⟨catalogue.opVerify, 0x02#8, 0#16, []⟩ (responseLen 1) .status).sent = true := by decide +kernel

/-- R190, R182: `readZone` of 4 bytes of the data zone asks for a frame of 7 bytes, with bit 7 of the zone id clear. -/
theorem test_readZone : (readZone catalogue .data 0 4 (host [.ok, .ok, .ok]
    [.frame wakeResponseBytes, .frame (inFrameBytes [1#8, 2#8, 3#8, 4#8])] false)).1 = .ok [1#8, 2#8, 3#8, 4#8] := by
  decide +kernel

/-- R199: the hash of no bytes is Start and End: two transactions, of 7 events and, with the digest's 35
bytes in two reads, of 8. -/
theorem test_sha256_empty : (let r := sha256 catalogue [] (host [.ok, .ok, .ok, .ok, .ok, .ok] [.frame wakeResponseBytes,
      .frame (inFrameBytes [0x00#8]), .frame wakeResponseBytes, .frame (inFrameBytes (List.replicate 32 0xAB#8))] false)
     (r.1, r.2.block.trace.length)) = (.ok (List.replicate 32 0xAB#8), 15) := by decide +kernel

/-! ### The snapshot -/

/-- A layout that R45 allows; the source gives no offsets (N12). -/
def layout : SnapshotLayout :=
  { serialFirst := (0, 4), serialSecond := (8, 6), revision := 4, configLock := 87, otpLock := 86, slot0Lock := 88,
    slotConfig := 20, keyConfig := 96 }

theorem test_layout_legal : layout.Legal := by decide

/-- Two spans that touch are one span. -/
theorem test_layout_contiguous : ¬ { layout with serialSecond := (4, 6) }.Legal := by decide

/-- Four reads of a configuration zone whose bytes all are 0x55. -/
def zoneReads : List Pending := [.frame wakeResponseBytes, .frame (inFrameBytes (List.replicate 32 0x55#8))]

theorem witness_SnapshotReadAndDecoded : layout.Legal ∧ (readSnapshot catalogue (host (List.replicate 12 .ok)
    (zoneReads ++ zoneReads ++ zoneReads ++ zoneReads) false)).1 = .ok (List.replicate 128 0x55#8) ∧
    (readSnapshot catalogue (host [] [.answer .err] false)).1 = .error .busError :=
  ⟨by decide, by decide +kernel, by decide +kernel⟩

/-! ### The device -/

/-- The pulse is long enough and there is one owner. -/
def premises : Premises := { catalogue := catalogue, lowLongEnough := true, oneOwner := true }

/-- The block of V60 after its transaction: every duty was kept, and the device is idle if it woke. -/
theorem test_xact_keeps_duties : (let b := (xact lockCommand 32000 4#8 .status (start [.ok, .ok, .ok]
      (answers [wakeResponseBytes, [0x04#8, 0x00#8, 0x03#8, 0x40#8]]))).block
     (b.dutyBroken premises, b.possibleDevices premises)) =
      (false, [⟨.idle, true⟩, ⟨.sleeping, false⟩]) := by
  decide +kernel

/-- R262: the same with a processing delay that is too short. -/
theorem test_xact_early_breaks_duty : (xact lockCommand 31999 4#8 .status (start [.ok, .ok, .ok]
    (answers [wakeResponseBytes, [0x04#8, 0x00#8, 0x03#8, 0x40#8]]))).block.dutyBroken premises = true := by
  decide +kernel

/-- R265: loading the temp register and then signing keeps the duties; signing alone does not. -/
theorem test_load_then_sign : (let h := host (List.replicate 6 .ok) ([.frame wakeResponseBytes,
      .frame (inFrameBytes [0x00#8]), .frame wakeResponseBytes, .answer .err]) false
     (sign catalogue 0 (loadTempKey catalogue (Vector.replicate 32 0x01#8) h).2).2.block.dutyBroken premises) = false := by
  decide +kernel

theorem test_sign_alone : (let h := host (List.replicate 3 .ok) [.frame wakeResponseBytes, .answer .err] true
     (sign catalogue 0 h).2.block.dutyBroken premises) = true := by
  decide +kernel

/-- R263: a sleep byte with no idle byte before it does not end an exchange; SLEEP's own, behind an idle byte, breaks no
duty. -/
theorem test_lone_sleep_byte :
    ({ start [] [] with trace := [.wr 0x00#7 [] .ok, .dly 1500, .wr 0x60#7 [0x01#8] .ok] } : State).dutyBroken premises =
      true ∧
    ({ start [] [] with trace := [.wr 0x00#7 [] .ok, .dly 1500, .wr 0x60#7 [0x02#8] .ok, .wr 0x60#7 [0x01#8] .ok] } :
      State).dutyBroken premises = false := by
  decide +kernel

/-- R121: an idle byte inside the wait after a pulse. -/
theorem test_idle_in_wake_wait : ({ start [] [] with trace := [.wr 0x00#7 [] .ok, .dly 1499, .wr 0x60#7 [0x02#8] .ok] } :
    State).dutyBroken premises = true := by
  decide +kernel

/-- R41, N13: a WAKE that failed and a second pulse leave no device idle without its transient state. -/
theorem test_second_pulse : ({ start [] [] with trace := [.wr 0x00#7 [] .ok, .dly 1500,
    .rd 0x60#7 4 (.bytes [0xFF#8, 0xFF#8, 0xFF#8, 0xFF#8]), .wr 0x00#7 [] .ok] } : State).possibleDevices premises =
    [⟨.sleeping, false⟩, ⟨.awake, false⟩, ⟨.awake, true⟩, ⟨.idle, true⟩, ⟨.awake, false⟩, ⟨.sleeping, false⟩] := by
  decide +kernel

theorem witness_IdleMakesDeviceIdle : ∃ t, (start [.ok] []).dutyBroken premises = false ∧
    (start [.ok] []).wakeSettling premises = false ∧
    exec .idle (start [.ok] []) = .next t ∧ t.err = .ok ∧
    (⟨.sleeping, false⟩ : DeviceState) ∈ t.possibleDevices premises :=
  ⟨_, by decide +kernel, by decide +kernel, rfl, by decide +kernel, by decide +kernel⟩

theorem witness_WakeMayWakeDevice : ∃ t, exec .wake (start [.ok] [.answer .err]) = .next t ∧
    (start [.ok] [.answer .err]).possibleDevices premises ≠ [] := ⟨_, rfl, by decide +kernel⟩

/-- A block with the frame of V22 encoded, a response it may read too early, and two writes answered `ok`. -/
def frameReady : State :=
  { start [.ok, .ok] [.frame (inFrameBytes [0x00#8])] with
    txbuf := (List.range 8).zip (outFrameBytes 0x03#8 0x17#8 0x80#8 0x0000#16 [])
    txLen := 8#9 }

theorem frameReady_inv : frameReady.Inv where
  cfgLegal := by decide +kernel
  rxWf := Memory.nil_wf _
  txWf := by decide +kernel
  rxFilled := .inl ⟨rfl, rfl⟩
  txFramed := .inr ⟨by decide +kernel, 0x17#8, 0x80#8, 0x0000#16, [], by decide +kernel, by decide +kernel⟩
  expectedRange := by decide +kernel
  attemptsRange := by decide +kernel
  exhaustedMeans := fun h => nomatch h
  overflowMeans := by decide +kernel
  errOfBlock := ⟨by decide +kernel, by decide +kernel⟩

theorem catalogue_legal : catalogue.Legal :=
  ⟨fun _ => ⟨by show 1000 ≤ 32000; decide, by show 32000 ≤ 115000; decide⟩, by decide, by decide⟩

/-- R187: a catalogue whose `getInfo` awaits too few bytes is not legal. -/
theorem test_info_too_short : ¬ { catalogue with infoPayloadLen := 2 }.Legal := fun h => absurd h.2.1 (by decide)

/-- R200: a status frame where 67 bytes were awaited: the further reads of that RECEIVE break no duty. -/
theorem test_short_response_keeps_duties : ({ start [] [] with trace := [.wr 0x00#7 [] .ok, .dly 1500,
    .rd 0x60#7 4 (.bytes wakeResponseBytes), .wr 0x60#7 (outFrameBytes 0x03#8 0x40#8 0x04#8 0x0000#16 []) .ok, .dly 32000,
    .rd 0x60#7 32 (.bytes [0x04#8, 0x0F#8, 0x23#8, 0x42#8]), .rd 0x60#7 32 (.bytes [])] } : State).dutyBroken premises =
    false := by
  decide +kernel

/-- A breach in the past, a response read too early, two frames without a read between, and a write inside the wait after a
pulse. -/
theorem witness_BrokenDutyLeavesDeviceUnknown :
    (∃ t, exec .idle { frameReady with trace := [.rd 0x60#7 4 .err] } = .next t ∧
      ({ frameReady with trace := [.rd 0x60#7 4 .err] } : State).dutyBroken premises = true) ∧
    (∃ t u, (∀ op, 1000 ≤ premises.catalogue.tExec op) ∧ frameReady.Inv ∧ exec .transmit frameReady = .next t ∧ t.err = .ok ∧
      exec (.receive 4#8) t = .next u) ∧
    (∃ t u, frameReady.Inv ∧ exec .transmit frameReady = .next t ∧ t.err = .ok ∧ exec .transmit t = .next u) ∧
    (∃ t, ({ frameReady with trace := [.wr 0x00#7 [] .ok] } : State).wakeSettling premises = true ∧
      exec .idle { frameReady with trace := [.wr 0x00#7 [] .ok] } = .next t) :=
  ⟨⟨_, rfl, by decide +kernel⟩, ⟨_, _, fun op => (catalogue_legal.1 op).1, frameReady_inv, rfl, by decide +kernel, rfl⟩,
    ⟨_, _, frameReady_inv, rfl, by decide +kernel, rfl⟩, ⟨_, by decide +kernel, rfl⟩⟩

/-- After a wake pulse the device may be awake. -/
theorem witness_SleepLeavesBothOutcomesOpen :
    (let s := { start [.ok, .ok] [] with trace := [.wr 0x00#7 [] .ok, .dly 1500] }
     ∃ t, exec .sleep s = .next t ∧ t.err = .ok ∧ s.cfg.Legal ∧ ∃ d ∈ s.possibleDevices premises, d.power = .awake) :=
  ⟨_, rfl, by decide +kernel, by decide +kernel, ⟨.awake, false⟩, by decide +kernel, rfl⟩

end Sys2Proof.Tests
end

/-! The step: what it does with an input that decodes (R13, R27). -/

namespace Sys2Proof.Proofs
open Sys2Proof.Machine

/-- The instruction branch of `step`, for citing instead of unfolding it. -/
theorem step_eq_exec_of_decode_ok {s : State} {x : Input} {rest : List Input} {i : Instr}
    (hinputs : s.inputs = x :: rest) (hdecode : decode s.cfg s.devAddr x = .ok i) :
    step s = exec i { s with inputs := rest } := by
  simp only [step, hinputs, hdecode]

/-- Settles O5: it is the branch of `step` in which the decoder answers an instruction. -/
theorem stepRunsDecodedInstruction : Obligations.StepRunsDecodedInstruction := by
  intro s x rest i hinputs hdecode
  exact step_eq_exec_of_decode_ok hinputs hdecode

end Sys2Proof.Proofs

/-! What every instruction leaves alone (R36): the access matrix as a relation between two states, operation by
operation, then for `exec`. -/

namespace Sys2Proof.Proofs
open Sys2Proof.Machine

/-! ### The next state of an instruction -/

/-- R160: TRANSMIT gives a next state only with a frame in `txbuf`. -/
theorem exec_transmit_next {s t : State} (h : exec .transmit s = .next t) : s.txLen ≠ 0#9 ∧ t = runTransmit s := by
  by_cases h0 : s.txLen = 0#9
  · rw [show exec .transmit s = .refused .noValidFrame from if_pos h0] at h
    exact nomatch h
  · rw [show exec .transmit s = .next (runTransmit s) from if_neg h0] at h
    exact ⟨h0, (Host.Outcome.next.inj h).symm⟩

@[simp] theorem wakePulseAndWait_eq (s : State) :
    s.wakePulseAndWait = (s.dropAck.logEvent (.wr s.cfg.wakeAddr [] s.nextAck)).trDelay Config.tWhiUs := rfl

/-! ### The access matrix as a relation -/

/-- From `s` to `t` nothing changed but registers with a `W` entry for `i` in the access matrix of R36. -/
structure KeepsUnwritten (i : Instr) (s t : State) : Prop where
  crcReg : writesRegister i .crcReg = false → t.crcReg = s.crcReg
  lastCrc : writesRegister i .lastCrc = false → t.lastCrc = s.lastCrc
  rxbuf : writesRegister i .rxbuf = false → t.rxbuf = s.rxbuf
  rxTotal : writesRegister i .rxTotal = false → t.rxTotal = s.rxTotal
  rxExpected : writesRegister i .rxExpected = false → t.rxExpected = s.rxExpected
  attempts : writesRegister i .attempts = false → t.attempts = s.attempts
  exhausted : writesRegister i .exhausted = false → t.exhausted = s.exhausted
  overflow : writesRegister i .overflow = false → t.overflow = s.overflow
  ps : writesRegister i .ps = false → t.ps = s.ps
  err : writesRegister i .err = false → t.err = s.err
  txbuf : writesRegister i .txbuf = false → t.txbuf = s.txbuf
  txLen : writesRegister i .txLen = false → t.txLen = s.txLen
  devAddr : t.devAddr = s.devAddr
  cfg : t.cfg = s.cfg
  inputs : t.inputs = s.inputs

theorem KeepsUnwritten.trans {i : Instr} {s t u : State} (h : KeepsUnwritten i s t) (g : KeepsUnwritten i t u) :
    KeepsUnwritten i s u where
  crcReg w := (g.crcReg w).trans (h.crcReg w)
  lastCrc w := (g.lastCrc w).trans (h.lastCrc w)
  rxbuf w := (g.rxbuf w).trans (h.rxbuf w)
  rxTotal w := (g.rxTotal w).trans (h.rxTotal w)
  rxExpected w := (g.rxExpected w).trans (h.rxExpected w)
  attempts w := (g.attempts w).trans (h.attempts w)
  exhausted w := (g.exhausted w).trans (h.exhausted w)
  overflow w := (g.overflow w).trans (h.overflow w)
  ps w := (g.ps w).trans (h.ps w)
  err w := (g.err w).trans (h.err w)
  txbuf w := (g.txbuf w).trans (h.txbuf w)
  txLen w := (g.txLen w).trans (h.txLen w)
  devAddr := g.devAddr.trans h.devAddr
  cfg := g.cfg.trans h.cfg
  inputs := g.inputs.trans h.inputs

/-- A transport write is no register access (R65). -/
theorem keepsUnwritten_logEvent_dropAck (i : Instr) (s : State) (e : Event) :
    KeepsUnwritten i s (s.dropAck.logEvent e) := by
  constructor <;> simp

theorem keepsUnwritten_offerFrame (i : Instr) (s : State) (c : List Byte) : KeepsUnwritten i s (s.offerFrame c) := by
  constructor <;> simp

/-- Every operation writes `err` (R30). -/
theorem keepsUnwritten_finish {i : Instr} (h : isOperation i = true) (s : State) (r : ResultCode) (o : Output) :
    KeepsUnwritten i s (s.finish r o) := by
  rw [isOperation] at h
  constructor <;> simp [h]

theorem keepsUnwritten_setPs {i : Instr} (h : writesRegister i .ps = true) (s : State) (p : PowerState) :
    KeepsUnwritten i s (s.setPs p) := by
  constructor <;> simp [h]

theorem keepsUnwritten_setCrc {i : Instr} (h : writesRegister i .crcReg = true) (s : State) (r : Half) :
    KeepsUnwritten i s (s.setCrc r) := by
  constructor <;> simp [h]

/-- The receive engine writes its own six registers alone; WAKE and RECEIVE write all of them. -/
theorem keepsUnwritten_of_engineFrame {i : Instr} {s t : State} (hi : i = .wake ∨ ∃ n, i = .receive n)
    (h : s.EngineFrame t) : KeepsUnwritten i s t := by
  obtain rfl | ⟨n, rfl⟩ := hi <;> constructor <;>
    simp [writesRegister, h.crcReg, h.lastCrc, h.ps, h.err, h.devAddr, h.txbuf, h.txLen, h.cfg, h.inputs]

/-! ### The frame of each operation -/

theorem runEncode_keepsUnwritten (opcode param1 : Byte) (param2 : Half) (data : List Byte) (s : State) :
    KeepsUnwritten (.encode opcode param1 param2 data) s (runEncode opcode param1 param2 data s) := by
  obtain ⟨-, e⟩ | ⟨-, e⟩ := runEncode_cases opcode param1 param2 data s <;> rw [e] <;> constructor <;>
    simp [writesRegister]

theorem runDecode_keepsUnwritten (s : State) : KeepsUnwritten .decode s (runDecode s) := by
  obtain ⟨-, e⟩ | ⟨-, -, e⟩ | ⟨-, -, e⟩ := runDecode_cases s <;> rw [e] <;> constructor <;> simp [writesRegister]

theorem runTransmit_keepsUnwritten (s : State) : KeepsUnwritten .transmit s (runTransmit s) := by
  obtain ⟨-, e⟩ | ⟨-, e⟩ := runTransmit_cases s <;> rw [e] <;> constructor <;> simp [writesRegister]

theorem runIdle_keepsUnwritten (s : State) : KeepsUnwritten .idle s (runIdle s) := by
  obtain ⟨-, e⟩ | ⟨-, e⟩ := runIdle_cases s <;> rw [e] <;> constructor <;> simp [writesRegister]

theorem runSleep_keepsUnwritten (s : State) : KeepsUnwritten .sleep s (runSleep s) := by
  obtain ⟨-, e⟩ | ⟨-, -, e⟩ | ⟨-, -, e⟩ := runSleep_cases s <;> rw [e] <;> constructor <;> simp [writesRegister]

theorem runReceive_keepsUnwritten (n : Byte) (s : State) : KeepsUnwritten (.receive n) s (runReceive n s) := by
  obtain ⟨es, r, t, g, -, ⟨-, -, e⟩ | ⟨-, -, e⟩ | ⟨-, e⟩⟩ := runReceive_cases n s <;> rw [e] <;>
    refine (keepsUnwritten_of_engineFrame (.inr ⟨n, rfl⟩) g.frame).trans ?_
  · exact (keepsUnwritten_setPs rfl _ _).trans (keepsUnwritten_finish rfl _ _ _)
  all_goals exact keepsUnwritten_finish rfl _ _ _

theorem judgeWake_keepsUnwritten (t : State) : KeepsUnwritten .wake t t.judgeWake := by
  obtain ⟨-, e⟩ | ⟨-, -, e⟩ | ⟨-, -, -, e⟩ | ⟨-, -, -, -, e⟩ | ⟨-, -, -, -, e⟩ := t.judgeWake_cases <;> rw [e] <;>
    constructor <;> simp [writesRegister]

theorem runWake_keepsUnwritten (s : State) : KeepsUnwritten .wake s (runWake s) := by
  have hpulse : KeepsUnwritten .wake s s.wakePulseAndWait := by constructor <;> simp
  obtain ⟨es, r, t, g, -, ⟨-, e⟩ | ⟨-, e⟩⟩ := runWake_cases s <;> rw [e] <;>
    refine (hpulse.trans (keepsUnwritten_of_engineFrame (.inl rfl) g.frame)).trans ?_
  · exact keepsUnwritten_finish rfl _ _ _
  · exact judgeWake_keepsUnwritten t

/-- R36: what `exec` answers differs from where it started in written registers alone. -/
theorem exec_keepsUnwritten {i : Instr} {s t : State} (h : exec i s = .next t) : KeepsUnwritten i s t := by
  cases i with
  | transmit => exact (exec_transmit_next h).2 ▸ runTransmit_keepsUnwritten s
  | crcClr | crcShift | crcByte | crc16 =>
    obtain rfl := Host.Outcome.next.inj h
    exact (keepsUnwritten_setCrc rfl _ _).trans (keepsUnwritten_finish rfl _ _ _)
  | wake => exact Host.Outcome.next.inj h ▸ runWake_keepsUnwritten s
  | idle => exact Host.Outcome.next.inj h ▸ runIdle_keepsUnwritten s
  | sleep => exact Host.Outcome.next.inj h ▸ runSleep_keepsUnwritten s
  | encode opcode param1 param2 data =>
    exact Host.Outcome.next.inj h ▸ runEncode_keepsUnwritten opcode param1 param2 data s
  | decode => exact Host.Outcome.next.inj h ▸ runDecode_keepsUnwritten s
  | receive n => exact Host.Outcome.next.inj h ▸ runReceive_keepsUnwritten n s
  | outFrame | ctrlIdle | ctrlSleep | wakePulse =>
    obtain rfl := Host.Outcome.next.inj h
    exact keepsUnwritten_logEvent_dropAck _ _ _
  | inFrame | wakeResponse =>
    obtain rfl := Host.Outcome.next.inj h
    exact keepsUnwritten_offerFrame _ _ _

/-- Settles O38, by the frame of each instruction; the read loop's is `State.EngineFrame`. -/
theorem accessMatrix : Obligations.AccessMatrix := by
  intro i s t h
  have k := exec_keepsUnwritten h
  have hrx (w : writesRegister i .rxbuf = false) (j : Nat) : t.readRx j = s.readRx j := State.readRx_congr (k.rxbuf w) j
  have htx (w : writesRegister i .txbuf = false) (j : Nat) : t.readTx j = s.readTx j := by
    rw [State.readTx, k.txbuf w, State.readTx]
  exact ⟨k.crcReg, k.lastCrc, hrx, k.rxTotal, k.rxExpected, k.attempts, k.exhausted, k.overflow, k.ps, k.err, htx,
    k.txLen, k.devAddr, k.cfg, k.inputs⟩

end Sys2Proof.Proofs

/-! The invariant of the block's registers, in the parts that the receive engine, ENCODE and the endings establish. -/

namespace Sys2Proof.Proofs
open Sys2Proof.Machine

/-! ### The invariant in its parts -/

/-- The part of the invariant about the registers of the receive engine (R23 to R26, R29, R164). -/
structure ReceiveInv (s : State) : Prop where
  rxWf : Memory.wf Config.rxbufCap s.rxbuf
  rxFilled : s.RxFilled
  expectedRange : s.rxExpected.toNat ≤ Config.rxbufCap
  attemptsRange : s.attempts.toNat ≤ Config.attemptMax
  exhaustedMeans : s.exhausted = true → s.attempts.toNat = Config.attemptMax ∧ s.rxTotal.toNat < s.rxExpected.toNat
  overflowMeans : s.overflow = decide (Config.rxbufCap < s.rxTotal.toNat)

/-- The part of the invariant about the outbound frame (R32, R140). -/
structure TransmitInv (s : State) : Prop where
  txWf : Memory.wf Config.txbufCap s.txbuf
  txFramed : s.TxFramed

/-- R220: neither of the two codes that only the host produces. -/
def IsBlockCode (e : ResultCode) : Prop := e ≠ .invalidLength ∧ e ≠ .deviceRejected

theorem inv_iff (s : State) : s.Inv ↔ s.cfg.Legal ∧ ReceiveInv s ∧ TransmitInv s ∧ IsBlockCode s.err :=
  ⟨fun h => ⟨h.cfgLegal, ⟨h.rxWf, h.rxFilled, h.expectedRange, h.attemptsRange, h.exhaustedMeans, h.overflowMeans⟩,
      ⟨h.txWf, h.txFramed⟩, h.errOfBlock⟩,
    fun ⟨hc, hr, ht, he⟩ => ⟨hc, hr.rxWf, ht.txWf, hr.rxFilled, ht.txFramed, hr.expectedRange, hr.attemptsRange,
      hr.exhaustedMeans, hr.overflowMeans, he⟩⟩

/-- The inputs that wait are no register. -/
theorem inv_with_inputs {s : State} (h : s.Inv) (rest : List Input) : ({ s with inputs := rest } : State).Inv :=
  ⟨h.cfgLegal, h.rxWf, h.txWf, h.rxFilled, h.txFramed, h.expectedRange, h.attemptsRange, h.exhaustedMeans,
    h.overflowMeans, h.errOfBlock⟩

/-! ### The receive engine -/

theorem ReceiveInv.congr {s t : State} (h : ReceiveInv s) (hbuf : t.rxbuf = s.rxbuf) (htotal : t.rxTotal = s.rxTotal)
    (hexpected : t.rxExpected = s.rxExpected) (hattempts : t.attempts = s.attempts)
    (hexhausted : t.exhausted = s.exhausted) (hoverflow : t.overflow = s.overflow) : ReceiveInv t where
  rxWf := by rw [hbuf]; exact h.rxWf
  rxFilled := by rw [State.RxFilled, hbuf, htotal]; exact h.rxFilled
  expectedRange := by rw [hexpected]; exact h.expectedRange
  attemptsRange := by rw [hattempts]; exact h.attemptsRange
  exhaustedMeans := by rw [hexhausted, hattempts, htotal, hexpected]; exact h.exhaustedMeans
  overflowMeans := by rw [hoverflow, htotal]; exact h.overflowMeans

/-- R164: above the bytes delivered stands the sentinel. -/
theorem collected_rxFilled {s : State} {d : List Byte} (h : s.Collected d) : s.RxFilled := by
  refine .inr fun k hk => ⟨by simp [h.bytes k hk], fun hle => ?_⟩
  have hd : d.length ≤ k := by
    have htotal := h.total
    simp only [Config.rxbufCap, Config.rxTotalMax] at hk htotal
    omega
  rw [h.bytes k hk, List.getElem?_eq_none hd, Option.getD_none]

/-- R166: the saturated count is above 128 exactly when more than 128 bytes came. -/
theorem collected_overflow {s : State} {d : List Byte} (h : s.Collected d) :
    s.overflow = decide (Config.rxbufCap < s.rxTotal.toNat) := by
  rw [h.flag, h.total, decide_eq_decide]
  simp only [Config.rxbufCap, Config.rxTotalMax]
  omega

/-- The receive steps establish their part of the invariant from whatever state they start in. -/
theorem stepsSpec_receiveInv {s t : State} {n : Byte} {r : ResultCode} {es : List Event} (g : s.StepsSpec n r t es) :
    ReceiveInv t where
  rxWf := g.collected.wf
  rxFilled := collected_rxFilled g.collected
  expectedRange := by rw [g.expected]; exact Nat.min_le_right _ _
  attemptsRange := by rw [g.attempts]; exact g.atMost
  exhaustedMeans hex := by
    rw [g.exhausted, Bool.and_eq_true, decide_eq_true_eq] at hex
    obtain ⟨hok, hshort⟩ := hex
    refine ⟨(g.stopped hok).resolve_left (by simp [hshort]), ?_⟩
    simpa [State.incomplete] using hshort
  overflowMeans := collected_overflow g.collected

theorem runReceive_receiveInv (n : Byte) (s : State) : ReceiveInv (runReceive n s) := by
  obtain ⟨es, r, t, g, -, ⟨-, -, e⟩ | ⟨-, -, e⟩ | ⟨-, e⟩⟩ := runReceive_cases n s <;> rw [e] <;>
    exact (stepsSpec_receiveInv g).congr rfl rfl rfl rfl rfl rfl

theorem judgeWake_receiveInv {t : State} (h : ReceiveInv t) : ReceiveInv t.judgeWake := by
  obtain ⟨-, e⟩ | ⟨-, -, e⟩ | ⟨-, -, -, e⟩ | ⟨-, -, -, -, e⟩ | ⟨-, -, -, -, e⟩ := t.judgeWake_cases <;> rw [e] <;>
    exact h.congr rfl rfl rfl rfl rfl rfl

theorem runWake_receiveInv (s : State) : ReceiveInv (runWake s) := by
  obtain ⟨es, r, t, g, -, ⟨-, e⟩ | ⟨-, e⟩⟩ := runWake_cases s <;> rw [e]
  · exact (stepsSpec_receiveInv g).congr rfl rfl rfl rfl rfl rfl
  · exact judgeWake_receiveInv (stepsSpec_receiveInv g)

/-- R36: WAKE and RECEIVE alone write the engine's registers. -/
theorem writesRegister_receiveEngine {i : Instr} (hwake : i ≠ .wake) (hreceive : ∀ n, i ≠ .receive n) :
    ∀ r ∈ [Register.rxbuf, .rxTotal, .rxExpected, .attempts, .exhausted, .overflow], writesRegister i r = false := by
  cases i with
  | wake => exact absurd rfl hwake
  | receive n => exact absurd rfl (hreceive n)
  | _ => simp [writesRegister]

theorem exec_keeps_receiveInv {i : Instr} {s t : State} (h : exec i s = .next t) (hs : ReceiveInv s) :
    ReceiveInv t := by
  by_cases hwake : i = .wake
  · subst hwake
    exact Host.Outcome.next.inj h ▸ runWake_receiveInv s
  by_cases hreceive : ∃ n, i = .receive n
  · obtain ⟨n, rfl⟩ := hreceive
    exact Host.Outcome.next.inj h ▸ runReceive_receiveInv n s
  · have k := exec_keepsUnwritten h
    have w := writesRegister_receiveEngine hwake fun n e => hreceive ⟨n, e⟩
    exact hs.congr (k.rxbuf (w _ (by simp))) (k.rxTotal (w _ (by simp))) (k.rxExpected (w _ (by simp)))
      (k.attempts (w _ (by simp))) (k.exhausted (w _ (by simp))) (k.overflow (w _ (by simp)))

/-! ### The outbound frame -/

/-- R71: a frame within MAX_TRANSFER fits `txbuf`. -/
theorem commandFrame_length_le {p : Params} {c : List Byte} (h : IsCommandFrame p c) : c.length ≤ Config.txbufCap := by
  obtain ⟨opcode, param1, param2, data, hfits, rfl⟩ := h
  have := p.maxTransfer.isLt
  simp only [outFrameBytes_length, Config.overhead, Config.txbufCap] at *
  omega

theorem TransmitInv.congr {s t : State} (h : TransmitInv s) (hcfg : t.cfg = s.cfg) (hbuf : t.txbuf = s.txbuf)
    (hlen : t.txLen = s.txLen) : TransmitInv t where
  txWf := by rw [hbuf]; exact h.txWf
  txFramed := by
    rw [State.TxFramed, hlen, hcfg, State.txSlice_congr hbuf]
    exact h.txFramed

/-- A command frame put in `txbuf` is what the frame registers then name (R140). -/
theorem putFrame_transmitInv {s : State} {c : List Byte} (h : TransmitInv s) (hc : IsCommandFrame s.cfg c) :
    TransmitInv (s.putFrame c) := by
  have hle := commandFrame_length_le hc
  have hlen : (s.putFrame c).txLen.toNat = c.length := by
    simp only [Config.txbufCap] at hle
    rw [State.putFrame_txLen, BitVec.toNat_ofNat, Nat.mod_eq_of_lt (by omega)]
  refine ⟨Memory.writeList_wf h.txWf (by omega), .inr ⟨by rw [hlen]; exact hle, ?_⟩⟩
  rw [hlen, State.txSlice_of_writeList (State.putFrame_txbuf s c)]
  exact hc

theorem runEncode_transmitInv {s : State} (h : TransmitInv s) (opcode param1 : Byte) (param2 : Half)
    (data : List Byte) : TransmitInv (runEncode opcode param1 param2 data s) := by
  obtain ⟨-, e⟩ | ⟨hfits, e⟩ := runEncode_cases opcode param1 param2 data s <;> rw [e]
  · exact ⟨h.txWf, .inl rfl⟩
  · exact (putFrame_transmitInv h ⟨opcode, param1, param2, data, hfits, rfl⟩).congr rfl rfl rfl

/-- R36: ENCODE alone writes `txbuf` and `tx_len`. -/
theorem writesRegister_tx {i : Instr} (h : ∀ a b c d, i ≠ .encode a b c d) :
    writesRegister i .txbuf = false ∧ writesRegister i .txLen = false := by
  cases i with
  | encode a b c d => exact absurd rfl (h a b c d)
  | _ => simp [writesRegister]

theorem exec_keeps_transmitInv {i : Instr} {s t : State} (h : exec i s = .next t) (hs : TransmitInv s) :
    TransmitInv t := by
  by_cases hencode : ∃ a b c d, i = .encode a b c d
  · obtain ⟨a, b, c, d, rfl⟩ := hencode
    exact Host.Outcome.next.inj h ▸ runEncode_transmitInv hs a b c d
  · have k := exec_keepsUnwritten h
    obtain ⟨wbuf, wlen⟩ := writesRegister_tx fun a b c d e => hencode ⟨a, b, c, d, e⟩
    exact hs.congr k.cfg (k.txbuf wbuf) (k.txLen wlen)

/-! ### The result codes -/

theorem runEncode_mayEndWith (opcode param1 : Byte) (param2 : Half) (data : List Byte) (s : State) :
    mayEndWith (.encode opcode param1 param2 data) (runEncode opcode param1 param2 data s).err = true := by
  obtain ⟨-, e⟩ | ⟨-, e⟩ := runEncode_cases opcode param1 param2 data s <;> rw [e] <;> rfl

theorem runDecode_mayEndWith (s : State) : mayEndWith .decode (runDecode s).err = true := by
  obtain ⟨-, e⟩ | ⟨-, -, e⟩ | ⟨-, -, e⟩ := runDecode_cases s <;> rw [e] <;> rfl

theorem runTransmit_mayEndWith (s : State) : mayEndWith .transmit (runTransmit s).err = true := by
  obtain ⟨-, e⟩ | ⟨-, e⟩ := runTransmit_cases s <;> rw [e] <;> rfl

theorem runReceive_mayEndWith (n : Byte) (s : State) : mayEndWith (.receive n) (runReceive n s).err = true := by
  obtain ⟨es, r, t, -, -, ⟨-, -, e⟩ | ⟨-, -, e⟩ | ⟨-, e⟩⟩ := runReceive_cases n s <;> rw [e] <;> rfl

theorem runIdle_mayEndWith (s : State) : mayEndWith .idle (runIdle s).err = true := by
  obtain ⟨-, e⟩ | ⟨-, e⟩ := runIdle_cases s <;> rw [e] <;> rfl

theorem runSleep_mayEndWith (s : State) : mayEndWith .sleep (runSleep s).err = true := by
  obtain ⟨-, e⟩ | ⟨-, -, e⟩ | ⟨-, -, e⟩ := runSleep_cases s <;> rw [e] <;> rfl

theorem judgeWake_mayEndWith (t : State) : mayEndWith .wake t.judgeWake.err = true := by
  obtain ⟨-, e⟩ | ⟨-, -, e⟩ | ⟨-, -, -, e⟩ | ⟨-, -, -, -, e⟩ | ⟨-, -, -, -, e⟩ := t.judgeWake_cases <;> rw [e] <;> rfl

theorem runWake_mayEndWith (s : State) : mayEndWith .wake (runWake s).err = true := by
  obtain ⟨es, r, t, -, -, ⟨-, e⟩ | ⟨-, e⟩⟩ := runWake_cases s <;> rw [e]
  · rfl
  · exact judgeWake_mayEndWith t

/-- R220: an operation ends with a code its column names. -/
theorem exec_mayEndWith {i : Instr} {s t : State} (h : exec i s = .next t) (hop : isOperation i = true) :
    mayEndWith i t.err = true := by
  cases i with
  | transmit => exact (exec_transmit_next h).2 ▸ runTransmit_mayEndWith s
  | crcClr | crcShift | crcByte | crc16 => exact Host.Outcome.next.inj h ▸ rfl
  | wake => exact Host.Outcome.next.inj h ▸ runWake_mayEndWith s
  | idle => exact Host.Outcome.next.inj h ▸ runIdle_mayEndWith s
  | sleep => exact Host.Outcome.next.inj h ▸ runSleep_mayEndWith s
  | encode a b c d => exact Host.Outcome.next.inj h ▸ runEncode_mayEndWith a b c d s
  | decode => exact Host.Outcome.next.inj h ▸ runDecode_mayEndWith s
  | receive n => exact Host.Outcome.next.inj h ▸ runReceive_mayEndWith n s
  | outFrame | inFrame | ctrlIdle | ctrlSleep | wakePulse | wakeResponse =>
    exact absurd hop (by simp [isOperation, writesRegister])

/-- R220: no operation of the block may end with one of the host's two codes. -/
theorem isBlockCode_of_mayEndWith {i : Instr} {e : ResultCode} (h : mayEndWith i e = true) : IsBlockCode e := by
  constructor <;> rintro rfl <;> cases i <;> simp [mayEndWith] at h

theorem exec_keeps_isBlockCode {i : Instr} {s t : State} (h : exec i s = .next t) (hs : IsBlockCode s.err) :
    IsBlockCode t.err := by
  cases hop : isOperation i with
  | true => exact isBlockCode_of_mayEndWith (exec_mayEndWith h hop)
  | false => rwa [(exec_keepsUnwritten h).err hop]

/-! ### The whole invariant -/

/-- Every instruction keeps the invariant, part by part. -/
theorem exec_keeps_inv {i : Instr} {s t : State} (h : exec i s = .next t) (hs : s.Inv) : t.Inv := by
  obtain ⟨hcfg, hreceive, htransmit, herr⟩ := (inv_iff s).1 hs
  refine (inv_iff t).2 ⟨?_, exec_keeps_receiveInv h hreceive, exec_keeps_transmitInv h htransmit,
    exec_keeps_isBlockCode h herr⟩
  rwa [(exec_keepsUnwritten h).cfg]

/-- What a step that gives a next state did (R13): nothing, with nothing at the interfaces, or one instruction. -/
theorem step_next_cases {s t : State} (h : step s = .next t) :
    (s.inputs = [] ∧ t = s) ∨
      ∃ x rest i, s.inputs = x :: rest ∧ decode s.cfg s.devAddr x = .ok i ∧
        exec i { s with inputs := rest } = .next t := by
  cases hinputs : s.inputs with
  | nil =>
    simp only [step, hinputs] at h
    exact .inl ⟨rfl, (Host.Outcome.next.inj h).symm⟩
  | cons x rest =>
    cases hdecode : decode s.cfg s.devAddr x with
    | error e => simp [step, hinputs, hdecode] at h
    | ok i => exact .inr ⟨x, rest, i, rfl, hdecode, step_eq_exec_of_decode_ok hinputs hdecode ▸ h⟩

/-- Settles O44: a step is one instruction, and each instruction keeps each part of the invariant. -/
theorem stepKeepsInvariant : Obligations.StepKeepsInvariant := by
  intro s t hs h
  obtain ⟨-, rfl⟩ | ⟨x, rest, i, -, -, hexec⟩ := step_next_cases h
  · exact hs
  · exact exec_keeps_inv hexec (inv_with_inputs hs rest)

/-- Settles O43, field by field; that the parameters are legal whatever the free constants are is `params_legal`. -/
theorem resetMeetsInvariant : Obligations.ResetMeetsInvariant where
  cfgLegal := params_legal
  rxWf := Memory.nil_wf _
  txWf := Memory.nil_wf _
  rxFilled := .inl ⟨rfl, rfl⟩
  txFramed := .inl rfl
  expectedRange := by decide
  attemptsRange := by decide
  exhaustedMeans := by decide
  overflowMeans := by decide
  errOfBlock := by decide

end Sys2Proof.Proofs

/-! The smaller statements about the registers: reset, STATUS, `last_crc`. -/

namespace Sys2Proof.Proofs
open Sys2Proof.Machine

/-! ### `last_crc` -/

/-- R36: ENCODE, DECODE and WAKE alone write `last_crc`. -/
theorem writesRegister_lastCrc {i : Instr} (h : writesRegister i .lastCrc = true) :
    (∃ a b c d, i = .encode a b c d) ∨ i = .decode ∨ i = .wake := by
  cases i with
  | encode a b c d => exact .inl ⟨a, b, c, d, rfl⟩
  | decode => exact .inr (.inl rfl)
  | wake => exact .inr (.inr rfl)
  | _ => simp [writesRegister] at h

/-- R22: `last_crc` is as it was in `s`, or is the pair of the register as `t` has it. -/
def LastCrcFollows (s t : State) : Prop := t.lastCrc = s.lastCrc ∨ t.lastCrc = crcPair t.crcReg

theorem runEncode_lastCrcFollows (opcode param1 : Byte) (param2 : Half) (data : List Byte) (s : State) :
    LastCrcFollows s (runEncode opcode param1 param2 data s) := by
  obtain ⟨-, e⟩ | ⟨-, e⟩ := runEncode_cases opcode param1 param2 data s <;> rw [e]
  · exact .inl rfl
  · exact .inr rfl

theorem runDecode_lastCrcFollows (s : State) : LastCrcFollows s (runDecode s) := by
  obtain ⟨-, e⟩ | ⟨-, -, e⟩ | ⟨-, -, e⟩ := runDecode_cases s <;> rw [e]
  · exact .inl rfl
  all_goals exact .inr rfl

theorem judgeWake_lastCrcFollows (t : State) : LastCrcFollows t t.judgeWake := by
  obtain ⟨-, e⟩ | ⟨-, -, e⟩ | ⟨-, -, -, e⟩ | ⟨-, -, -, -, e⟩ | ⟨-, -, -, -, e⟩ := t.judgeWake_cases <;> rw [e]
  · exact .inl rfl
  · exact .inl rfl
  · exact .inl rfl
  all_goals exact .inr rfl

theorem runWake_lastCrcFollows (s : State) : LastCrcFollows s (runWake s) := by
  obtain ⟨es, r, t, g, -, ends⟩ := runWake_cases s
  have hread : t.lastCrc = s.lastCrc := by simpa using g.frame.lastCrc
  obtain ⟨-, e⟩ | ⟨-, e⟩ := ends <;> rw [e]
  · exact .inl hread
  · rw [LastCrcFollows, ← hread]
    exact judgeWake_lastCrcFollows t

/-- Settles O46: the access matrix leaves three instructions, and each of them follows the codec. -/
theorem lastCrcFollowsCodec : Obligations.LastCrcFollowsCodec := by
  intro i s t h hchanged
  have hwrites : writesRegister i .lastCrc = true := by
    by_contra hw
    exact hchanged ((exec_keepsUnwritten h).lastCrc (Bool.eq_false_of_not_eq_true hw))
  have hi := writesRegister_lastCrc hwrites
  have hfollows : LastCrcFollows s t := by
    obtain ⟨a, b, c, d, rfl⟩ | rfl | rfl := hi
    · exact Host.Outcome.next.inj h ▸ runEncode_lastCrcFollows a b c d s
    · exact Host.Outcome.next.inj h ▸ runDecode_lastCrcFollows s
    · exact Host.Outcome.next.inj h ▸ runWake_lastCrcFollows s
  exact ⟨hi, hfollows.resolve_left hchanged⟩

/-! ### Reset -/

/-- Settles O7, by evaluating reset. -/
theorem resetValues : Obligations.ResetValues :=
  ⟨rfl, rfl, rfl, rfl, rfl, rfl, rfl, rfl, rfl, rfl, rfl⟩

/-! ### STATUS -/

/-- R35: bits 2:0, the last part of the concatenation. -/
theorem status_err_field (s : State) : s.status.extractLsb' 0 3 = s.err.code := by
  rw [State.status, BitVec.extractLsb'_append_eq_of_add_le (by omega)]
  simp

/-- R35: bits 6:5, above the three bits of `err` and the two flags. -/
theorem status_ps_field (s : State) : s.status.extractLsb' 5 2 = s.ps.code := by
  rw [State.status, BitVec.extractLsb'_append_eq_of_le (by omega), BitVec.extractLsb'_append_eq_of_le (by omega),
    BitVec.extractLsb'_append_eq_of_le (by omega), BitVec.extractLsb'_append_eq_of_add_le (by omega)]
  simp

theorem status_exhausted_bit (s : State) : s.status.getLsbD 3 = s.exhausted := by
  simp only [State.status, BitVec.getLsbD_append]
  simp

theorem status_overflow_bit (s : State) : s.status.getLsbD 4 = s.overflow := by
  simp only [State.status, BitVec.getLsbD_append]
  simp

theorem status_top_bit (s : State) : s.status.getLsbD 7 = false := by
  simp only [State.status, BitVec.getLsbD_append]
  simp

/-- Settles O8: each field of the concatenation, then the two tables of codes. -/
theorem statusFields : Obligations.StatusFields := by
  intro s
  refine ⟨?_, status_exhausted_bit s, status_overflow_bit s, ?_, status_top_bit s⟩
  · rw [status_err_field]
    cases s.err <;> rfl
  · rw [status_ps_field]
    cases s.ps <;> rfl

end Sys2Proof.Proofs

/-! What each instruction adds to the trace, and what that says of the host's duties and of the device. -/

namespace Sys2Proof.Proofs
open Sys2Proof.Machine

/-! ### The events an instruction adds -/

theorem trWrite_trace (s : State) (a : BusAddr) (c : List Byte) :
    (s.trWrite a c).2.trace = s.trace ++ [.wr a c s.nextAck] := by simp

theorem runTransmit_trace (s : State) :
    (runTransmit s).trace = s.trace ++ [.wr s.devAddr (s.txSlice 0 s.txLen.toNat) s.nextAck] := by
  obtain ⟨hack, e⟩ | ⟨hack, e⟩ := runTransmit_cases s <;> rw [e, hack] <;> simp

theorem runIdle_trace (s : State) :
    (runIdle s).trace = s.trace ++ [.wr s.devAddr [s.cfg.pfxIdle] s.nextAck] := by
  obtain ⟨hack, e⟩ | ⟨hack, e⟩ := runIdle_cases s <;> rw [e, hack] <;> simp

theorem runSleep_trace (s : State) :
    ∃ es, (runSleep s).trace = s.trace ++ .wr s.devAddr [s.cfg.pfxIdle] s.nextAck :: es := by
  obtain ⟨hack, e⟩ | ⟨hack, -, e⟩ | ⟨hack, -, e⟩ := runSleep_cases s <;> rw [e, hack] <;> simp

theorem runEncode_trace (opcode param1 : Byte) (param2 : Half) (data : List Byte) (s : State) :
    (runEncode opcode param1 param2 data s).trace = s.trace := by
  obtain ⟨-, e⟩ | ⟨-, e⟩ := runEncode_cases opcode param1 param2 data s <;> rw [e] <;> rfl

theorem runDecode_trace (s : State) : (runDecode s).trace = s.trace := by
  obtain ⟨-, e⟩ | ⟨-, -, e⟩ | ⟨-, -, e⟩ := runDecode_cases s <;> rw [e] <;> rfl

theorem judgeWake_trace (t : State) : t.judgeWake.trace = t.trace := by
  obtain ⟨-, e⟩ | ⟨-, -, e⟩ | ⟨-, -, -, e⟩ | ⟨-, -, -, -, e⟩ | ⟨-, -, -, -, e⟩ := t.judgeWake_cases <;> rw [e] <;> rfl

/-- The event is a transport read from `dev`. -/
def IsReadFrom (dev : BusAddr) (e : Event) : Prop := ∃ m ans, e = .rd dev m ans

theorem stepsSpec_isReadFrom {s t : State} {n : Byte} {r : ResultCode} {es : List Event} (g : s.StepsSpec n r t es) :
    ∀ e ∈ es, IsReadFrom s.devAddr e := by
  intro e he
  obtain ⟨pre, post, hsplit⟩ := List.append_of_mem he
  obtain ⟨ans, hread, -, -⟩ := g.reads pre e post hsplit
  exact ⟨_, ans, hread⟩

/-- R162: when something is expected, at least one read is made. -/
theorem stepsSpec_events_ne_nil {s t : State} {n : Byte} {r : ResultCode} {es : List Event}
    (g : s.StepsSpec n r t es) (hn : n ≠ 0#8) : es ≠ [] := by
  rintro rfl
  have hpos : 0 < n.toNat := Nat.pos_of_ne_zero fun h0 => hn (BitVec.eq_of_toNat_eq h0)
  have hok : r = .ok := g.result.resolve_right fun hr => by simpa using g.failed.1 hr
  have htotal : t.rxTotal.toNat = 0 := by simpa [delivered] using g.collected.total
  have hexpected := g.expected
  have hattempts := g.attempts
  simp only [Config.rxbufCap, List.length_nil] at hexpected hattempts
  obtain hdone | hspent := g.stopped hok
  · simp only [State.incomplete, decide_eq_false_iff_not] at hdone
    omega
  · simp only [Config.attemptMax] at hspent
    omega

theorem runReceive_trace (n : Byte) (s : State) :
    ∃ es, (runReceive n s).trace = s.trace ++ es ∧ (∀ e ∈ es, IsReadFrom s.devAddr e) ∧ (n ≠ 0#8 → es ≠ []) := by
  obtain ⟨es, r, t, g, -, ends⟩ := runReceive_cases n s
  refine ⟨es, ?_, stepsSpec_isReadFrom g, stepsSpec_events_ne_nil g⟩
  obtain ⟨-, -, e⟩ | ⟨-, -, e⟩ | ⟨-, e⟩ := ends <;> rw [e] <;> exact g.trace

theorem runWake_trace (s : State) :
    ∃ es, (runWake s).trace = s.trace ++ .wr s.cfg.wakeAddr [] s.nextAck :: .dly Config.tWhiUs :: es ∧
      ∀ e ∈ es, IsReadFrom s.devAddr e := by
  obtain ⟨es, r, t, g, -, ends⟩ := runWake_cases s
  refine ⟨es, ?_, by simpa using stepsSpec_isReadFrom g⟩
  have hread : t.trace = s.trace ++ .wr s.cfg.wakeAddr [] s.nextAck :: .dly Config.tWhiUs :: es := by
    simpa using g.trace
  obtain ⟨-, e⟩ | ⟨-, e⟩ := ends <;> rw [e]
  · exact hread
  · rw [judgeWake_trace, hread]

/-- Every instruction only adds to the trace (R60). -/
theorem exec_trace_extends {i : Instr} {s t : State} (h : exec i s = .next t) : ∃ es, t.trace = s.trace ++ es := by
  cases i with
  | transmit => exact ⟨_, (exec_transmit_next h).2 ▸ runTransmit_trace s⟩
  | crcClr | crcShift | crcByte | crc16 | inFrame | wakeResponse =>
    obtain rfl := Host.Outcome.next.inj h
    exact ⟨[], (List.append_nil _).symm⟩
  | encode a b c d => exact ⟨[], by rw [← Host.Outcome.next.inj h, runEncode_trace, List.append_nil]⟩
  | decode => exact ⟨[], by rw [← Host.Outcome.next.inj h, runDecode_trace, List.append_nil]⟩
  | idle => exact ⟨_, Host.Outcome.next.inj h ▸ runIdle_trace s⟩
  | sleep =>
    obtain ⟨es, he⟩ := runSleep_trace s
    exact ⟨_, Host.Outcome.next.inj h ▸ he⟩
  | wake =>
    obtain ⟨es, he, -⟩ := runWake_trace s
    exact ⟨_, Host.Outcome.next.inj h ▸ he⟩
  | receive n =>
    obtain ⟨es, he, -⟩ := runReceive_trace n s
    exact ⟨es, Host.Outcome.next.inj h ▸ he⟩
  | outFrame | ctrlIdle | ctrlSleep | wakePulse =>
    obtain rfl := Host.Outcome.next.inj h
    exact ⟨_, trWrite_trace s _ _⟩

/-- R121, R123, R124, R160: the first transport call of these four operations is a write. -/
theorem exec_first_event_is_write {i : Instr} {s t : State} (hi : i = .idle ∨ i = .sleep ∨ i = .wake ∨ i = .transmit)
    (h : exec i s = .next t) : ∃ a c r es, t.trace = s.trace ++ .wr a c r :: es := by
  obtain rfl | rfl | rfl | rfl := hi
  · exact ⟨_, _, _, [], Host.Outcome.next.inj h ▸ runIdle_trace s⟩
  · obtain ⟨es, he⟩ := runSleep_trace s
    exact ⟨_, _, _, es, Host.Outcome.next.inj h ▸ he⟩
  · obtain ⟨es, he, -⟩ := runWake_trace s
    exact ⟨_, _, _, _, Host.Outcome.next.inj h ▸ he⟩
  · exact ⟨_, _, _, [], (exec_transmit_next h).2 ▸ runTransmit_trace s⟩

/-- TRANSMIT from a state that meets the invariant writes one command frame to the device (R160, R161). -/
theorem exec_transmit_sends_commandFrame {s t : State} (hs : s.Inv) (h : exec .transmit s = .next t) :
    ∃ c r, IsCommandFrame s.cfg c ∧ t.trace = s.trace ++ [.wr s.devAddr c r] ∧ (t.err = .ok → r = .ok) := by
  obtain ⟨hlen, rfl⟩ := exec_transmit_next h
  obtain ⟨-, hframe⟩ := hs.txFramed.resolve_left hlen
  refine ⟨_, _, hframe, runTransmit_trace s, fun hok => ?_⟩
  obtain ⟨hack, -⟩ | ⟨-, e⟩ := runTransmit_cases s
  · exact hack
  · rw [e] at hok
    exact nomatch hok

/-! ### The duties along the trace -/

/-- What is remembered after an instruction is what its events make of what was remembered before. -/
theorem exec_watch {i : Instr} {s t : State} {es : List Event} (p : Premises) (h : exec i s = .next t)
    (htrace : t.trace = s.trace ++ es) : t.watch p = watchAfter p s.cfg s.devAddr (s.watch p) es :=
  State.watch_of_trace p (exec_keepsUnwritten h).cfg (exec_keepsUnwritten h).devAddr htrace

/-- An instruction whose first event is a breach leaves a broken duty. -/
theorem exec_dutyBroken_of_first_event {i : Instr} {s t : State} {e : Event} {es : List Event} (p : Premises)
    (h : exec i s = .next t) (htrace : t.trace = s.trace ++ e :: es)
    (hbreach : (watchEvent p s.cfg s.devAddr (s.watch p) e).broken = true) : t.dutyBroken p = true := by
  rw [State.dutyBroken, exec_watch p h htrace]
  exact watchAfter_broken _ _ _ es _ hbreach

/-- R46, R270: a breach stays one. -/
theorem exec_keeps_dutyBroken {i : Instr} {s t : State} (p : Premises) (h : exec i s = .next t)
    (hs : s.dutyBroken p = true) : t.dutyBroken p = true := by
  obtain ⟨es, htrace⟩ := exec_trace_extends h
  exact State.dutyBroken_of_trace p (exec_keepsUnwritten h).cfg (exec_keepsUnwritten h).devAddr htrace hs

/-- A command frame written to the device is judged as a frame (R70, R74). -/
theorem watchEvent_commandFrame {p : Params} {c : List Byte} (h : IsCommandFrame p c) (e : Premises) (dev : BusAddr) :
    ∃ opcode param1 param2, ∀ (w : Watch) (r : Ack),
      watchEvent e p dev w (.wr dev c r) = (w.judge (!w.settling)).frame e opcode param1 param2 r := by
  obtain ⟨opcode, param1, param2, data, -, rfl⟩ := h
  exact ⟨opcode, param1, param2, fun w r => by simp [watchEvent, Watch.write, outFrameBytes, outBody]⟩

/-- R262, R263: a TRANSMIT that ended with `Ok` begins an exchange: nothing waited for yet, nothing read. -/
theorem exec_transmit_ok_watch {s t : State} (p : Premises) (hs : s.Inv) (h : exec .transmit s = .next t)
    (hok : t.err = .ok) :
    ∃ opcode, (t.watch p).phase = .commanded opcode ∧ (t.watch p).waited = 0 ∧ (t.watch p).got = [] := by
  obtain ⟨c, r, hframe, htrace, hr⟩ := exec_transmit_sends_commandFrame hs h
  obtain rfl := hr hok
  obtain ⟨opcode, param1, param2, hjudged⟩ := watchEvent_commandFrame hframe p s.devAddr
  have hwatch : t.watch p = ((s.watch p).judge (!(s.watch p).settling)).frame p opcode param1 param2 .ok :=
    (exec_watch p h htrace).trans (hjudged _ _)
  rw [hwatch]
  exact ⟨opcode, Watch.frame_ok _ p opcode param1 param2⟩

/-- R262: a read in a state that has waited less than the command's processing delay is a breach. -/
theorem watchEvent_early_read {e : Premises} {p : Params} {dev : BusAddr} {w : Watch} {opcode : Byte}
    (hphase : w.phase = .commanded opcode) (hearly : w.waited < e.catalogue.tExec opcode) (m : Nat) (ans : ReadAnswer) :
    (watchEvent e p dev w (.rd dev m ans)).broken = true := by
  have hmay : w.mayRead e = false := by simpa [Watch.mayRead, hphase] using hearly
  simp [watchEvent, Watch.read_broken, hmay]

/-- R263: a frame sent while the response before is not read is a breach. -/
theorem watchEvent_unread_frame {e : Premises} {p : Params} {dev : BusAddr} {w : Watch} {opcode : Byte} {c : List Byte}
    (hphase : w.phase = .commanded opcode) (hgot : w.got = []) (hframe : IsCommandFrame p c) (r : Ack) :
    (watchEvent e p dev w (.wr dev c r)).broken = true := by
  obtain ⟨_, _, _, hjudged⟩ := watchEvent_commandFrame hframe e dev
  have hcomplete : (w.judge (!w.settling)).complete = false := by simp [Watch.complete, hphase, hgot]
  rw [hjudged, Watch.frame_broken, hcomplete]
  simp

theorem exec_receive_early_breaks_duty {s t u : State} {n : Byte} (p : Premises)
    (hdelay : ∀ op, 1000 ≤ p.catalogue.tExec op) (hs : s.Inv) (ht : exec .transmit s = .next t) (hok : t.err = .ok)
    (hn : n ≠ 0#8) (hu : exec (.receive n) t = .next u) : u.dutyBroken p = true := by
  obtain ⟨opcode, hphase, hwaited, -⟩ := exec_transmit_ok_watch p hs ht hok
  obtain ⟨es, htrace, hreads, hne⟩ := runReceive_trace n t
  rw [Host.Outcome.next.inj hu] at htrace
  obtain ⟨e, rest, rfl⟩ := List.exists_cons_of_ne_nil (hne hn)
  obtain ⟨m, ans, rfl⟩ := hreads e (by simp)
  have hearly : (t.watch p).waited < p.catalogue.tExec opcode := by
    have := hdelay opcode
    omega
  exact exec_dutyBroken_of_first_event p hu htrace (watchEvent_early_read hphase hearly m ans)

theorem exec_transmit_twice_breaks_duty {s t u : State} (p : Premises) (hs : s.Inv)
    (ht : exec .transmit s = .next t) (hok : t.err = .ok) (hu : exec .transmit t = .next u) :
    u.dutyBroken p = true := by
  obtain ⟨opcode, hphase, -, hgot⟩ := exec_transmit_ok_watch p hs ht hok
  obtain ⟨c, r, hframe, htrace, -⟩ := exec_transmit_sends_commandFrame (exec_keeps_inv ht hs) hu
  exact exec_dutyBroken_of_first_event p hu htrace (watchEvent_unread_frame hphase hgot hframe r)

/-- Settles O60: what broke the duty is the first event of the instruction, and no later event mends it. -/
theorem brokenDutyLeavesDeviceUnknown : Obligations.BrokenDutyLeavesDeviceUnknown := by
  intro p s
  have unknown {t : State} (h : t.dutyBroken p = true) :
      t.dutyBroken p = true ∧ ∀ d : DeviceState, d ∈ t.possibleDevices p :=
    ⟨h, t.possibleDevices_of_broken p h⟩
  refine ⟨fun i t h hbroken => unknown (exec_keeps_dutyBroken p h hbroken),
    fun n t u hdelay hs ht hok hn hu => unknown (exec_receive_early_breaks_duty p hdelay hs ht hok hn hu),
    fun t u hs ht hok hu => unknown (exec_transmit_twice_breaks_duty p hs ht hok hu),
    fun i t hi hsettling h => unknown ?_⟩
  obtain ⟨a, c, r, es, htrace⟩ := exec_first_event_is_write hi h
  exact exec_dutyBroken_of_first_event p h htrace (watchEvent_settling hsettling a c r)

/-! ### The device -/

/-- While the duties are kept, an instruction's events take the allowed device states on from those before. -/
theorem exec_possibleDevices {i : Instr} {s t : State} {es : List Event} (p : Premises) (h : exec i s = .next t)
    (htrace : t.trace = s.trace ++ es) (hkept : t.dutyBroken p = false) :
    t.possibleDevices p = devicesAfter s.cfg s.devAddr (s.possibleDevices p) es := by
  have hbefore : s.dutyBroken p = false := by
    by_contra hb
    rw [exec_keeps_dutyBroken p h (Bool.eq_true_of_not_eq_false hb)] at hkept
    exact nomatch hkept
  rw [State.possibleDevices_of_kept t p hkept, State.possibleDevices_of_kept s p hbefore, htrace,
    (exec_keepsUnwritten h).cfg, (exec_keepsUnwritten h).devAddr, devicesAfter_append]

/-- Reads and delays change no power state. -/
theorem devicesAfter_of_no_write {p : Params} {dev : BusAddr} {es : List Event}
    (h : ∀ e ∈ es, ∀ d, deviceAfterEvent p dev d e = [d]) (ds : List DeviceState) : devicesAfter p dev ds es = ds := by
  induction es generalizing ds with
  | nil => rfl
  | cons e es ih =>
    have hfirst : ds.flatMap (fun d => deviceAfterEvent p dev d e) = ds := by
      simp [h e (by simp)]
    have hrest := ih (fun e' he' => h e' (by simp [he'])) ds
    rwa [devicesAfter, List.foldl_cons, hfirst]

/-- R123, R40: the idle byte that was taken. -/
theorem deviceAfterEvent_idle_ok (p : Params) (dev : BusAddr) (d : DeviceState) :
    deviceAfterEvent p dev d (.wr dev [p.pfxIdle] .ok) = deviceAfterIdle d := by
  simp [deviceAfterEvent]

/-- R40, R128: the idle byte takes an awake device to Idle with its transient state, and leaves any other as it was. -/
theorem deviceAfterIdle_cases {d e : DeviceState} (h : d ∈ deviceAfterIdle e) :
    (e.power = .awake → d = ⟨.idle, true⟩) ∧ (e.power ≠ .awake → d = e) := by
  unfold deviceAfterIdle at h
  split at h <;> simp_all

/-- R123, R263: an idle byte that was taken outside a wake wait breaks no duty. -/
theorem watchEvent_idle_ok_broken (e : Premises) (p : Params) (dev : BusAddr) {w : Watch} (h : w.settling = false) :
    (watchEvent e p dev w (.wr dev [p.pfxIdle] .ok)).broken = w.broken := by
  simp [watchEvent, Watch.write, h]

/-- Settles O57: IDLE's one event keeps the duties and takes each allowed device state through `deviceAfterIdle`. -/
theorem idleMakesDeviceIdle : Obligations.IdleMakesDeviceIdle := by
  intro p s t hkept hsettling h hok
  have htrace : t.trace = s.trace ++ [.wr s.devAddr [s.cfg.pfxIdle] .ok] := by
    obtain rfl := Host.Outcome.next.inj h
    obtain ⟨hack, -⟩ | ⟨-, e⟩ := runIdle_cases s
    · rw [runIdle_trace, hack]
    · rw [e] at hok
      exact nomatch hok
  have hkept' : t.dutyBroken p = false := by
    rw [State.dutyBroken, exec_watch p h htrace]
    exact (watchEvent_idle_ok_broken p s.cfg s.devAddr hsettling).trans hkept
  refine ⟨hkept', fun d hd => ?_⟩
  rw [exec_possibleDevices p h htrace hkept'] at hd
  obtain ⟨e, he, hde⟩ := List.mem_flatMap.1 hd
  rw [deviceAfterEvent_idle_ok] at hde
  exact ⟨e, he, deviceAfterIdle_cases hde⟩

/-- R40, N13: whatever state the device was in, the pulse may leave it awake. -/
theorem deviceAfterPulse_awake (d : DeviceState) : ∃ e ∈ deviceAfterPulse d, e.power = .awake := by
  obtain ⟨power, kept⟩ := d
  cases power with
  | awake => exact ⟨⟨.awake, true⟩, List.mem_filter.2 ⟨DeviceState.mem_all _, rfl⟩, rfl⟩
  | sleeping | idle => exact ⟨⟨.awake, kept⟩, by simp [deviceAfterPulse], rfl⟩

/-- Settles O58: the pulse, WAKE's first event, may wake the device; the wait and the reads after it change nothing. -/
theorem wakeMayWakeDevice : Obligations.WakeMayWakeDevice := by
  intro p s t h hne
  by_cases hbroken : t.dutyBroken p = true
  · exact ⟨⟨.awake, true⟩, t.possibleDevices_of_broken p hbroken _, rfl⟩
  obtain ⟨es, htrace, hreads⟩ := runWake_trace s
  rw [Host.Outcome.next.inj h] at htrace
  have hquiet : ∀ e ∈ Event.dly Config.tWhiUs :: es, ∀ d, deviceAfterEvent s.cfg s.devAddr d e = [d] := by
    intro e he d
    obtain rfl | he := List.mem_cons.1 he
    · rfl
    · obtain ⟨m, ans, rfl⟩ := hreads e he
      rfl
  have hdevices : t.possibleDevices p = (s.possibleDevices p).flatMap deviceAfterPulse := by
    rw [exec_possibleDevices p h htrace (Bool.eq_false_of_not_eq_true hbroken), devicesAfter, List.foldl_cons]
    rw [← devicesAfter, devicesAfter_of_no_write hquiet]
    simp [deviceAfterEvent]
  obtain ⟨d, hd⟩ := List.exists_mem_of_ne_nil _ hne
  obtain ⟨e, he, hawake⟩ := deviceAfterPulse_awake d
  exact ⟨e, hdevices ▸ List.mem_flatMap.2 ⟨d, hd, he⟩, hawake⟩

end Sys2Proof.Proofs

/-! The configuration snapshot: what an explicit read caches, and the parts it decodes into (R45, R255). -/

namespace Sys2Proof.Proofs
open Sys2Proof.Machine Sys2Proof.Sequencer

/-- R255, R266: a snapshot read that succeeds gives the four blocks of 32 bytes and caches them. -/
theorem readSnapshot_ok {k : Catalogue} {h : HostState} {c : List Byte} (hok : (readSnapshot k h).1 = .ok c) :
    c.length = 128 ∧ (readSnapshot k h).2.snapshot = some c ∧ (readSnapshot k h).2.stale = false := by
  obtain ⟨hlength, -, -⟩ := readBlocks_spec k 4 0 [] h
  unfold readSnapshot at hok ⊢
  split at hok
  · rename_i v h' heq
    cases hok
    exact ⟨hlength c (by rw [heq]), rfl, rfl⟩
  · rename_i hnot heq
    exact absurd hok (hnot c)

/-- Log entry 21: a snapshot read that fails leaves the cache as it was. -/
theorem readSnapshot_failed {k : Catalogue} {h : HostState} (hfail : ∀ c, (readSnapshot k h).1 ≠ .ok c) :
    (readSnapshot k h).2.snapshot = h.snapshot ∧ (readSnapshot k h).2.stale = h.stale := by
  obtain ⟨-, hsnapshot, hstale⟩ := readBlocks_spec k 4 0 [] h
  unfold readSnapshot at hfail ⊢
  split
  · rename_i v h' heq
    exact absurd (by rw [heq]) (hfail v)
  · rename_i hnot heq
    rw [heq] at hsnapshot hstale
    exact ⟨hsnapshot, hstale⟩

/-- R45: the two spans of the serial number have 10 bytes together. -/
theorem serialNumber_length {l : SnapshotLayout} {c : List Byte} (hl : l.Legal) (hc : c.length = 128) :
    (serialNumber l c).length = 10 := by
  obtain ⟨-, -, hsum, -, hfirst, hsecond, -⟩ := hl
  rw [serialNumber, List.length_append, slice_length (by omega), slice_length (by omega), hsum]

theorem revisionNumber_length {l : SnapshotLayout} {c : List Byte} (hl : l.Legal) (hc : c.length = 128) :
    (revisionNumber l c).length = 4 := by
  obtain ⟨-, -, -, -, -, -, hrevision, -⟩ := hl
  exact slice_length (by omega)

/-- R45: every word of both tables has two bytes. -/
theorem decodeSnapshot_word_length {l : SnapshotLayout} {c w : List Byte} (hl : l.Legal) (hc : c.length = 128)
    (hw : w ∈ (decodeSnapshot l c).slotWords ++ (decodeSnapshot l c).keyWords) : w.length = 2 := by
  obtain ⟨-, -, -, -, -, -, -, -, -, -, hslot, hkey⟩ := hl
  obtain hw | hw := List.mem_append.1 hw
  · exact slotTable_word_length (by omega) hw
  · exact slotTable_word_length (by omega) hw

/-- Settles O56: the four block reads give the length, and the layout's bounds give the parts. -/
theorem snapshotReadAndDecoded : Obligations.SnapshotReadAndDecoded := by
  intro k l h hl
  refine ⟨fun c hok => ?_, readSnapshot_failed⟩
  obtain ⟨hc, hcached, hfresh⟩ := readSnapshot_ok hok
  exact ⟨hc, hcached, hfresh, serialNumber_length hl hc, revisionNumber_length hl hc, slotTable_length _ c,
    slotTable_length _ c, fun w hw => decodeSnapshot_word_length hl hc hw⟩

end Sys2Proof.Proofs

/-! What the block puts on the bus: each instruction's transport calls against the list of R62, R64, R74 and R235, and the
bytes that reads deliver against the transport's contract. -/

namespace Sys2Proof.Proofs
open Sys2Proof.Machine

/-! ### What the decoder lets through to the bus -/

/-- A request that decodes is well formed, whatever the parameters (R81). -/
theorem decodeRequest_wf {r : Request} {i : Instr} (p : Params) (dev : BusAddr) (h : decodeRequest r = .ok i) :
    i.wf p = true := by
  cases ho : operationOf r.op with
  | none => simp [decodeRequest, ho] at h
  | some o =>
    have hfields : decodeFields o r.fields = .ok i := by simpa [decodeRequest, ho] using h
    exact (decodeFields_ok p dev hfields).1

/-- A command frame that decodes is an OUT_FRAME within MAX_TRANSFER (R71). -/
theorem decodeCommandFrame_ok {p : Params} {count opcode param1 low high : Byte} {rest : List Byte} {i : Instr}
    (h : decodeCommandFrame p count opcode param1 low high rest = .ok i) :
    ∃ data, i = .outFrame opcode param1 (param2Of low high) data ∧
      Config.overhead + data.length ≤ p.maxTransfer.toNat := by
  simp only [decodeCommandFrame] at h
  split at h
  · exact nomatch h
  next hlength =>
    split at h
    · exact nomatch h
    · split at h
      · exact nomatch h
      · exact ⟨_, (Except.ok.inj h).symm, Nat.not_lt.1 fun hlarge => hlength (.inr hlarge)⟩

/-- A bus write that decodes is one of the three writes without operands or a command frame (R74). -/
theorem decodeBusWrite_ok {p : Params} {dev a : BusAddr} {c : List Byte} {i : Instr}
    (h : decodeBusWrite p dev a c = .ok i) :
    i = .wakePulse ∨ i = .ctrlIdle ∨ i = .ctrlSleep ∨
      ∃ count opcode param1 low high rest, decodeCommandFrame p count opcode param1 low high rest = .ok i := by
  unfold decodeBusWrite at h
  split at h
  · exact .inl (Except.ok.inj h).symm
  split at h
  · exact nomatch h
  split at h
  case h_1 => exact nomatch h
  case h_2 =>
    split at h
    · exact .inr (.inl (Except.ok.inj h).symm)
    split at h
    · exact .inr (.inr (.inl (Except.ok.inj h).symm))
    · split at h <;> exact nomatch h
  case h_3 =>
    split at h
    · exact .inr (.inr (.inr ⟨_, _, _, _, _, _, h⟩))
    · split at h <;> exact nomatch h
  case h_4 => split at h <;> exact nomatch h

/-- A bus read that decodes is an inbound format (R72, R75). -/
theorem decodeBusRead_ok {c : List Byte} {i : Instr} (h : decodeBusRead c = .ok i) :
    i = .wakeResponse ∨ ∃ payload, i = .inFrame payload := by
  unfold decodeBusRead at h
  split at h
  · exact .inl (Except.ok.inj h).symm
  · repeat (split at h; exact nomatch h)
    exact .inr ⟨_, (Except.ok.inj h).symm⟩

/-- R71: the decoder answers OUT_FRAME for a frame within MAX_TRANSFER alone. -/
theorem decode_outFrame_fits {p : Params} {dev : BusAddr} {x : Input} {opcode param1 : Byte} {param2 : Half}
    {data : List Byte} (h : decode p dev x = .ok (.outFrame opcode param1 param2 data)) :
    Config.overhead + data.length ≤ p.maxTransfer.toNat := by
  cases x with
  | request r => exact of_decide_eq_true (decodeRequest_wf p dev h)
  | busWrite a c =>
    obtain hi | hi | hi | ⟨_, _, _, _, _, _, hframe⟩ := decodeBusWrite_ok h
    · exact nomatch hi
    · exact nomatch hi
    · exact nomatch hi
    · obtain ⟨_, hi, hfits⟩ := decodeCommandFrame_ok hframe
      cases hi
      exact hfits
  | busRead c =>
    obtain hi | ⟨_, hi⟩ := decodeBusRead_ok h
    · exact nomatch hi
    · exact nomatch hi

/-! ### The transport calls of the operations -/

/-- R124: the idle byte, and the sleep byte when the idle byte was taken. -/
theorem runSleep_trace_eq (s : State) :
    (runSleep s).trace = s.trace ++ .wr s.devAddr [s.cfg.pfxIdle] s.nextAck ::
      if s.nextAck = .ok then [.wr s.devAddr [s.cfg.pfxSleep] s.dropAck.nextAck] else [] := by
  obtain ⟨hack, e⟩ | ⟨hack, hack', e⟩ | ⟨hack, hack', e⟩ := runSleep_cases s
  · simp [e, hack]
  · simp [e, hack, hack']
  · simp [e, hack, hack']

/-- RECEIVE is its receive steps and an ending, which writes `ps`, `err` and the output alone (R162). -/
theorem runReceive_eq_steps_then_end (n : Byte) (s : State) :
    ∃ es r t p o, s.StepsSpec n r t es ∧ runReceive n s = (t.setPs p).finish r o := by
  obtain ⟨es, r, t, g, -, ⟨rfl, -, e⟩ | ⟨rfl, -, e⟩ | ⟨rfl, e⟩⟩ := runReceive_cases n s
  · exact ⟨es, _, t, .ready, _, g, e⟩
  · exact ⟨es, _, t, t.ps, _, g, e⟩
  · exact ⟨es, _, t, t.ps, _, g, e⟩

/-- WAKE adds the pulse, the wait and the reads of its receive steps (R120). -/
theorem runWake_trace_steps (s : State) :
    ∃ es r t, s.wakePulseAndWait.StepsSpec Config.wakeRespLen r t es ∧
      (runWake s).trace = s.trace ++ .wr s.cfg.wakeAddr [] s.nextAck :: .dly Config.tWhiUs :: es := by
  obtain ⟨es, r, t, g, -, ends⟩ := runWake_cases s
  refine ⟨es, r, t, g, ?_⟩
  have hread : t.trace = s.trace ++ .wr s.cfg.wakeAddr [] s.nextAck :: .dly Config.tWhiUs :: es := by
    simpa using g.trace
  obtain ⟨-, e⟩ | ⟨-, e⟩ := ends <;> rw [e]
  · exact hread
  · rw [judgeWake_trace, hread]

/-- R64, R165: the receive steps read from `dev_addr`, and ask for 1 to 32 bytes each time. -/
theorem stepsSpec_fromBlock {s t : State} {n : Byte} {r : ResultCode} {es : List Event} (g : s.StepsSpec n r t es)
    (p : Params) : ∀ e ∈ es, e.FromBlock p s.devAddr := by
  intro e he
  obtain ⟨pre, post, hsplit⟩ := List.append_of_mem he
  obtain ⟨ans, rfl, hshort, -⟩ := g.reads pre e post hsplit
  refine ⟨rfl, Nat.le_min.2 ⟨by decide, Nat.sub_pos_of_lt hshort⟩, Nat.min_le_left _ _⟩

/-! ### Only listed calls -/

/-- An instruction makes only calls of the kinds the spec lists, when `txbuf` holds a command frame or nothing and an
OUT_FRAME is within MAX_TRANSFER. -/
theorem exec_events_fromBlock {i : Instr} {s t : State} (h : exec i s = .next t) (hs : s.Inv)
    (hfits : ∀ opcode param1 param2 data, i = .outFrame opcode param1 param2 data →
      Config.overhead + data.length ≤ s.cfg.maxTransfer.toNat) :
    ∃ es, t.trace = s.trace ++ es ∧ ∀ e ∈ es, e.FromBlock s.cfg s.devAddr := by
  cases i with
  | transmit =>
    obtain ⟨c, r, hframe, htrace, -⟩ := exec_transmit_sends_commandFrame hs h
    exact ⟨_, htrace, List.forall_mem_singleton.2 (.inr ⟨rfl, .inr (.inr hframe)⟩)⟩
  | crcClr | crcShift | crcByte | crc16 | inFrame | wakeResponse =>
    obtain rfl := Host.Outcome.next.inj h
    exact ⟨[], (List.append_nil _).symm, List.forall_mem_nil _⟩
  | encode a b c d =>
    exact ⟨[], by rw [← Host.Outcome.next.inj h, runEncode_trace, List.append_nil], List.forall_mem_nil _⟩
  | decode => exact ⟨[], by rw [← Host.Outcome.next.inj h, runDecode_trace, List.append_nil], List.forall_mem_nil _⟩
  | idle =>
    obtain rfl := Host.Outcome.next.inj h
    exact ⟨_, runIdle_trace s, List.forall_mem_singleton.2 (.inr ⟨rfl, .inl rfl⟩)⟩
  | sleep =>
    obtain rfl := Host.Outcome.next.inj h
    refine ⟨_, runSleep_trace_eq s, List.forall_mem_cons.2 ⟨.inr ⟨rfl, .inl rfl⟩, ?_⟩⟩
    split
    · exact List.forall_mem_singleton.2 (.inr ⟨rfl, .inr (.inl rfl)⟩)
    · exact List.forall_mem_nil _
  | wake =>
    obtain rfl := Host.Outcome.next.inj h
    obtain ⟨es, r, t, g, htrace⟩ := runWake_trace_steps s
    have hreads : ∀ e ∈ es, e.FromBlock s.cfg s.devAddr := by simpa using stepsSpec_fromBlock g s.cfg
    exact ⟨_, htrace, List.forall_mem_cons.2 ⟨.inl ⟨rfl, rfl⟩, List.forall_mem_cons.2 ⟨rfl, hreads⟩⟩⟩
  | receive n =>
    obtain rfl := Host.Outcome.next.inj h
    obtain ⟨es, r, u, p, o, g, e⟩ := runReceive_eq_steps_then_end n s
    exact ⟨es, e ▸ g.trace, stepsSpec_fromBlock g s.cfg⟩
  | outFrame opcode param1 param2 data =>
    obtain rfl := Host.Outcome.next.inj h
    have hframe : IsCommandFrame s.cfg (outFrameBytes s.cfg.pfxCommand opcode param1 param2 data) :=
      ⟨opcode, param1, param2, data, hfits _ _ _ _ rfl, rfl⟩
    exact ⟨_, trWrite_trace s _ _, List.forall_mem_singleton.2 (.inr ⟨rfl, .inr (.inr hframe)⟩)⟩
  | ctrlIdle =>
    obtain rfl := Host.Outcome.next.inj h
    exact ⟨_, trWrite_trace s _ _, List.forall_mem_singleton.2 (.inr ⟨rfl, .inl rfl⟩)⟩
  | ctrlSleep =>
    obtain rfl := Host.Outcome.next.inj h
    exact ⟨_, trWrite_trace s _ _, List.forall_mem_singleton.2 (.inr ⟨rfl, .inr (.inl rfl)⟩)⟩
  | wakePulse =>
    obtain rfl := Host.Outcome.next.inj h
    exact ⟨_, trWrite_trace s _ _, List.forall_mem_singleton.2 (.inl ⟨rfl, rfl⟩)⟩

/-- An instruction whose new events are listed calls keeps a trace of listed calls. -/
theorem exec_keeps_traceFromBlock {i : Instr} {s t : State} {es : List Event} (h : exec i s = .next t)
    (hs : s.TraceFromBlock) (htrace : t.trace = s.trace ++ es) (hes : ∀ e ∈ es, e.FromBlock s.cfg s.devAddr) :
    t.TraceFromBlock := by
  rw [State.TraceFromBlock, (exec_keepsUnwritten h).cfg, (exec_keepsUnwritten h).devAddr, htrace]
  exact List.forall_mem_append.2 ⟨hs, hes⟩

/-- Settles O45: a step is one instruction; the invariant bounds what TRANSMIT sends and the decoder what OUT_FRAME is. -/
theorem stepSendsOnlyListedFormats : Obligations.StepSendsOnlyListedFormats := by
  intro s t hs htraced h
  obtain ⟨-, rfl⟩ | ⟨x, rest, i, -, hdecode, hexec⟩ := step_next_cases h
  · exact htraced
  · obtain ⟨es, htrace, hes⟩ := exec_events_fromBlock hexec (inv_with_inputs hs rest)
      fun _ _ _ _ hi => decode_outFrame_fits (hi ▸ hdecode)
    exact exec_keeps_traceFromBlock hexec htraced htrace hes

/-! ### The trace -/

/-- R140, R144, R65: what makes no transport call leaves the trace alone. -/
theorem exec_trace_of_no_bus {i : Instr} {s t : State} (h : exec i s = .next t) (hi : usesBus i = false) :
    t.trace = s.trace := by
  cases i with
  | crcClr | crcShift | crcByte | crc16 | inFrame | wakeResponse => exact Host.Outcome.next.inj h ▸ rfl
  | encode a b c d => exact Host.Outcome.next.inj h ▸ runEncode_trace a b c d s
  | decode => exact Host.Outcome.next.inj h ▸ runDecode_trace s
  | wake | idle | sleep | transmit | receive | outFrame | ctrlIdle | ctrlSleep | wakePulse => exact nomatch hi

/-- Settles O39: what each instruction adds to the trace, and which add nothing. -/
theorem traceOnlyGrows : Obligations.TraceOnlyGrows := by
  intro i s t h
  exact ⟨exec_trace_extends h, exec_trace_of_no_bus h⟩

/-! ### TRANSMIT after ENCODE -/

/-- R32: nine bits hold the length of every command frame. -/
theorem putFrame_txLen_toNat (s : State) {p : Params} {c : List Byte} (hc : IsCommandFrame p c) :
    (s.putFrame c).txLen.toNat = c.length := by
  have hle := commandFrame_length_le hc
  simp only [Config.txbufCap] at hle
  rw [State.putFrame_txLen, BitVec.toNat_ofNat, Nat.mod_eq_of_lt (by omega)]

/-- ENCODE within MAX_TRANSFER leaves in `txbuf` exactly the frame of its operands (R140). -/
theorem runEncode_frame {s : State} {data : List Byte} (opcode param1 : Byte) (param2 : Half)
    (hfits : Config.overhead + data.length ≤ s.cfg.maxTransfer.toNat) :
    (runEncode opcode param1 param2 data s).txLen ≠ 0#9 ∧
      (runEncode opcode param1 param2 data s).txSlice 0 (runEncode opcode param1 param2 data s).txLen.toNat =
        outFrameBytes s.cfg.pfxCommand opcode param1 param2 data := by
  have hlen := putFrame_txLen_toNat s (p := s.cfg) ⟨opcode, param1, param2, data, hfits, rfl⟩
  rw [runEncode_fits opcode param1 param2 hfits]
  simp only [State.complete_eq, State.finish_txLen, State.setCodecCrc_txLen, State.finish_txSlice,
    State.setCodecCrc_txSlice]
  refine ⟨fun hzero => ?_, by rw [hlen, State.txSlice_of_writeList (State.putFrame_txbuf s _)]⟩
  rw [hzero, outFrameBytes_length, BitVec.toNat_zero] at hlen
  omega

/-- ENCODE leaves the coming write's answer as it was: it makes no transport call (R140). -/
theorem runEncode_nextAck (opcode param1 : Byte) (param2 : Half) (data : List Byte) (s : State) :
    (runEncode opcode param1 param2 data s).nextAck = s.nextAck := by
  obtain ⟨-, e⟩ | ⟨-, e⟩ := runEncode_cases opcode param1 param2 data s <;> rw [e] <;>
    exact State.nextAck_congr rfl rfl

theorem exec_transmit_of_frame {s : State} (h : s.txLen ≠ 0#9) : exec .transmit s = .next (runTransmit s) := if_neg h

theorem execAll_cons_next {i : Instr} {is : List Instr} {s t : State} (h : exec i s = .next t) :
    execAll (i :: is) s = execAll is t := by
  simp only [execAll, h]

/-- Settles O24: ENCODE leaves the frame in `txbuf` and the coming answer as it was, and TRANSMIT writes the whole frame,
which is what the bus transfer OUT_FRAME writes (log entry 3). -/
theorem transmitSendsWhatEncodeWrote : Obligations.TransmitSendsWhatEncodeWrote := by
  intro s opcode param1 param2 data hfits
  obtain ⟨hlen, hslice⟩ := runEncode_frame opcode param1 param2 hfits
  have hencode : exec (.encode opcode param1 param2 data) s = .next (runEncode opcode param1 param2 data s) := rfl
  have hout := trWrite_trace s s.devAddr (outFrameBytes s.cfg.pfxCommand opcode param1 param2 data)
  have htransmit := runTransmit_trace (runEncode opcode param1 param2 data s)
  rw [hslice, runEncode_nextAck, runEncode_trace, (exec_keepsUnwritten hencode).devAddr, ← hout] at htransmit
  refine ⟨_, _, ?_, rfl, htransmit, hout⟩
  rw [execAll_cons_next hencode, execAll_cons_next (exec_transmit_of_frame hlen), execAll]

/-! ### The transport's contract -/

theorem readBytes_length_le {a : BusAddr} {m : Nat} {ans : ReadAnswer} (h : (Event.rd a m ans).KeepsContract) :
    (Event.rd a m ans).readBytes.length ≤ m := by
  cases ans with
  | err => exact Nat.zero_le m
  | bytes c => exact h

/-- R62, R165: under the contract no read delivers more than is outstanding; the last read settles the total. -/
theorem stepsSpec_delivered_le {s t : State} {n : Byte} {r : ResultCode} {es : List Event} (g : s.StepsSpec n r t es)
    (hkept : ∀ e ∈ es, e.KeepsContract) : (delivered es).length ≤ min n.toNat Config.rxbufCap := by
  obtain rfl | ⟨pre, e, rfl⟩ := List.eq_nil_or_concat' es
  · exact Nat.zero_le _
  · obtain ⟨ans, rfl, hshort, -⟩ := g.reads pre e [] rfl
    have hlast := readBytes_length_le (hkept _ (List.mem_append_right pre (List.mem_singleton_self _)))
    simp only [delivered, List.flatMap_append, List.flatMap_cons, List.flatMap_nil, List.append_nil, List.length_append,
      Config.chunkMax, Config.rxbufCap, Config.rxTotalMax] at hshort hlast ⊢
    omega

/-- Settles O26: nothing is discarded and the total stays within what was expected, since the bytes delivered do. -/
theorem contractMeansNoOverflow : Obligations.ContractMeansNoOverflow := by
  intro s t n h hkept
  obtain rfl := Host.Outcome.next.inj h
  obtain ⟨es, r, u, p, o, g, e⟩ := runReceive_eq_steps_then_end n s
  have hes : ∀ ev ∈ es, ev.KeepsContract := by
    have htrace : (runReceive n s).trace = s.trace ++ es := e ▸ g.trace
    rwa [KeepsContractSince, htrace, List.drop_left] at hkept
  have hle := stepsSpec_delivered_le g hes
  rw [e, State.finish_overflow, State.setPs_overflow, State.finish_rxTotal, State.setPs_rxTotal, State.finish_rxExpected,
    State.setPs_rxExpected, g.collected.flag, g.collected.total, g.expected]
  exact ⟨decide_eq_false (Nat.not_lt.2 (hle.trans (Nat.min_le_right _ _))), (Nat.min_le_left _ _).trans hle⟩

/-! ### The inbound formats -/

theorem exec_inFrame (payload : List Byte) (s : State) :
    exec (.inFrame payload) s = .next (s.offerFrame (inFrameBytes payload)) := rfl

theorem exec_wakeResponse (s : State) : exec .wakeResponse s = .next (s.offerFrame wakeResponseBytes) := rfl

/-- Settles O35: both are `State.offerFrame` of their bytes. -/
theorem inboundFormatsStandOnBus : Obligations.InboundFormatsStandOnBus := by
  intro s
  refine ⟨fun payload => ?_, ?_⟩
  · rw [exec_inFrame, State.offerFrame, inFrameBytes, inBody, CrcPair.bytes]
  · rw [exec_wakeResponse, State.offerFrame, wakeResponseBytes]

end Sys2Proof.Proofs

/-! The encodings (R70 to R75, R80 to R82): each part of the decoder as the encoder's inverse, then both directions for
every instruction and input. -/

namespace Sys2Proof.Proofs
open Sys2Proof.Machine

/-! ### Frames and their CRC -/

/-- What a split at the last two bytes says of a frame: a body, then the two CRC bytes. -/
theorem eq_append_bytes_iff {rest body : List Byte} {c : CrcPair} :
    rest = body ++ c.bytes ↔
      2 ≤ rest.length ∧ rest.take (rest.length - 2) = body ∧ rest.drop (rest.length - 2) = c.bytes := by
  constructor
  · rintro rfl
    simp
  · rintro ⟨-, rfl, hcrc⟩
    rw [← hcrc, List.take_append_drop]

/-- The payload of an inbound frame stands between the count and the CRC (R72). -/
theorem inFrameBytes_injective {a b : List Byte} (h : inFrameBytes a = inFrameBytes b) : a = b := by
  have hbody : inBody a = inBody b := List.append_inj_left' h rfl
  exact (List.cons.inj hbody).2

/-! ### Bus traffic -/

/-- R70, R71: behind PFX_COMMAND the decoder answers exactly the frames within MAX_TRANSFER, each with its own operands. -/
theorem decodeCommandFrame_eq_ok_iff {p : Params} {count opcode param1 low high : Byte} {rest : List Byte} {i : Instr} :
    decodeCommandFrame p count opcode param1 low high rest = .ok i ↔
      ∃ data, Config.overhead + data.length ≤ p.maxTransfer.toNat ∧ count = outCount data ∧
        rest = data ++ (crc16Of (outBody opcode param1 (param2Of low high) data)).bytes ∧
        i = .outFrame opcode param1 (param2Of low high) data := by
  constructor
  · intro h
    simp only [decodeCommandFrame] at h
    split at h
    · exact nomatch h
    next hlength =>
      split at h
      · exact nomatch h
      next hcount =>
        split at h
        · exact nomatch h
        next hcrc =>
          rw [not_or, Nat.not_lt, Nat.not_lt] at hlength
          exact ⟨_, hlength.2, not_not.1 hcount, eq_append_bytes_iff.2 ⟨hlength.1, rfl, not_not.1 hcrc⟩,
            (Except.ok.inj h).symm⟩
  · rintro ⟨data, hfits, rfl, hrest, rfl⟩
    obtain ⟨hlength, hdata, hcrc⟩ := eq_append_bytes_iff.1 hrest
    simp only [decodeCommandFrame, hdata]
    rw [if_neg (by omega), if_neg (not_not.2 rfl), if_neg (not_not.2 hcrc)]

/-- R72: an inbound frame, told from its bytes as the decoder tests them. -/
theorem eq_inFrameBytes_iff {c payload : List Byte} :
    c = inFrameBytes payload ↔
      3 ≤ c.length ∧ c.head? = some (BitVec.ofNat 8 c.length) ∧
        c.drop (c.length - 2) = (crc16Of (c.take (c.length - 2))).bytes ∧
        (c.drop 1).take (c.length - 3) = payload := by
  constructor
  · intro hc
    obtain ⟨-, hbody, hcrc⟩ := eq_append_bytes_iff.1 hc
    refine ⟨?_, ?_, by rw [hbody, hcrc], ?_⟩
    · simp [hc]
    · simp [hc, inFrameBytes, inBody]
    · simp [hc, inFrameBytes, inBody]
  · rintro ⟨hlength, hcount, hcrc, hpayload⟩
    have hbody : c.take (c.length - 2) = inBody payload := by
      obtain ⟨count, tail, rfl⟩ := List.exists_cons_of_length_pos (Nat.zero_lt_of_lt hlength)
      have hlast : (count :: tail).length - 2 = (count :: tail).length - 3 + 1 := by omega
      have hcovered : payload.length + 3 = (count :: tail).length := by
        rw [← hpayload, List.length_take, List.length_drop]
        omega
      rw [hlast, List.take_succ_cons, Option.some.inj hcount, inBody, hcovered, ← hpayload]
      rfl
    exact eq_append_bytes_iff.2 ⟨by omega, hbody, hbody ▸ hcrc⟩

/-- R72, R73, R75: what a bus read brings is WAKE_RESPONSE, or the frame of a payload that is not the signal byte. -/
theorem decodeBusRead_eq_ok_iff {c : List Byte} {i : Instr} :
    decodeBusRead c = .ok i ↔ (c = wakeResponseBytes ∧ i = .wakeResponse) ∨
      ∃ payload, payload.length + 3 ≤ Config.rxbufCap ∧ payload ≠ [Config.wakeSignal] ∧ c = inFrameBytes payload ∧
        i = .inFrame payload := by
  constructor
  · intro h
    unfold decodeBusRead at h
    split at h
    next hwake => exact .inl ⟨hwake, (Except.ok.inj h).symm⟩
    next hwake =>
    split at h
    · exact nomatch h
    next hlength =>
    split at h
    · exact nomatch h
    next hcount =>
    split at h
    · exact nomatch h
    next hcrc =>
      rw [not_or, Nat.not_lt, Nat.not_lt] at hlength
      have hframe := eq_inFrameBytes_iff.2 ⟨hlength.1, not_not.1 hcount, not_not.1 hcrc, rfl⟩
      refine .inr ⟨_, ?_, fun hsignal => hwake ?_, hframe, (Except.ok.inj h).symm⟩
      · rw [← inFrameBytes_length, ← hframe]
        exact hlength.2
      · rw [wakeResponse_eq_inFrame, ← hsignal]
        exact hframe
  · rintro (⟨rfl, rfl⟩ | ⟨payload, hfits, hsignal, hframe, rfl⟩)
    · exact if_pos rfl
    · obtain ⟨hlength, hcount, hcrc, hpayload⟩ := eq_inFrameBytes_iff.1 hframe
      have hwake : c ≠ wakeResponseBytes := fun hwake =>
        hsignal (inFrameBytes_injective (hframe.symm.trans (hwake.trans wakeResponse_eq_inFrame)))
      have hmax : c.length ≤ Config.rxbufCap := by rwa [hframe, inFrameBytes_length]
      rw [decodeBusRead, if_neg hwake, if_neg (by omega), if_neg (not_not.2 hcount), if_neg (not_not.2 hcrc), hpayload]

/-- R70, R71, R74: a bus write that decodes has exactly the bytes and the address of what it decodes to. -/
theorem decodeBusWrite_sound {p : Params} {dev a : BusAddr} {c : List Byte} {i : Instr}
    (h : decodeBusWrite p dev a c = .ok i) : i.wf p = true ∧ encode p dev i = .busWrite a c := by
  unfold decodeBusWrite at h
  split at h
  next hpulse =>
    obtain ⟨rfl, rfl⟩ := hpulse
    obtain rfl := Except.ok.inj h
    exact ⟨rfl, rfl⟩
  split at h
  · exact nomatch h
  next haddr =>
  obtain rfl := not_not.1 haddr
  split at h
  case h_1 => exact nomatch h
  case h_2 =>
    split at h
    next hidle =>
      obtain rfl := Except.ok.inj h
      exact ⟨rfl, by rw [encode, hidle]⟩
    split at h
    next hsleep =>
      obtain rfl := Except.ok.inj h
      exact ⟨rfl, by rw [encode, hsleep]⟩
    · split at h <;> exact nomatch h
  case h_3 =>
    split at h
    next hcommand =>
      obtain ⟨data, hfits, rfl, rfl, rfl⟩ := decodeCommandFrame_eq_ok_iff.1 h
      refine ⟨decide_eq_true hfits, ?_⟩
      simp [encode, outFrameBytes, outBody, hcommand]
    · split at h <;> exact nomatch h
  case h_4 => split at h <;> exact nomatch h

/-- R74: a write to `dev_addr` that has a byte is no wake pulse, even if WAKE_ADDR is `dev_addr`. -/
theorem decodeBusWrite_ctrlIdle (p : Params) (dev : BusAddr) :
    decodeBusWrite p dev dev [p.pfxIdle] = .ok .ctrlIdle := by
  simp [decodeBusWrite]

theorem decodeBusWrite_ctrlSleep {p : Params} (hlegal : p.Legal) (dev : BusAddr) :
    decodeBusWrite p dev dev [p.pfxSleep] = .ok .ctrlSleep := by
  obtain ⟨-, -, hsleep, -⟩ := hlegal
  simp [decodeBusWrite, hsleep.symm]

theorem decodeBusWrite_outFrame {p : Params} {data : List Byte} (dev : BusAddr) (opcode param1 : Byte) (param2 : Half)
    (hfits : Config.overhead + data.length ≤ p.maxTransfer.toNat) :
    decodeBusWrite p dev dev (outFrameBytes p.pfxCommand opcode param1 param2 data) =
      .ok (.outFrame opcode param1 param2 data) := by
  have hframe : decodeCommandFrame p (outCount data) opcode param1 (param2Low param2) (param2High param2)
      (data ++ (crc16Of (outBody opcode param1 param2 data)).bytes) = .ok (.outFrame opcode param1 param2 data) :=
    decodeCommandFrame_eq_ok_iff.2 ⟨data, hfits, rfl, by rw [param2Of_split], by rw [param2Of_split]⟩
  simpa [decodeBusWrite, outFrameBytes, outBody] using hframe

/-! ### The host port -/

/-- R80, R81: a request that decodes is the encoding of what it decodes to. -/
theorem encode_of_decodeRequest {r : Request} {i : Instr} (p : Params) (dev : BusAddr) (h : decodeRequest r = .ok i) :
    encode p dev i = .request r := by
  cases ho : operationOf r.op with
  | none => simp [decodeRequest, ho] at h
  | some o =>
    have hfields : decodeFields o r.fields = .ok i := by simpa [decodeRequest, ho] using h
    rw [(decodeFields_ok p dev hfields).2, ← operationOf_some ho]

/-- R82: an operation number that no operation has is unassigned. -/
theorem decodeRequest_unassigned {r : Request} (h : ∀ o : Operation, r.op ≠ o.number) :
    decodeRequest r = .error (.unassignedOperation r.op) := by
  simp [decodeRequest, operationOf_none h]

/-! ### Both directions -/

/-- Settles O3: host port, bus write and bus read each decode to exactly what encodes to them. -/
theorem encodeInvertsDecode : Obligations.EncodeInvertsDecode := by
  intro p dev x i h
  cases x with
  | request r => exact ⟨decodeRequest_wf p dev h, encode_of_decodeRequest p dev h⟩
  | busWrite a c => exact decodeBusWrite_sound h
  | busRead c =>
    obtain ⟨rfl, rfl⟩ | ⟨payload, hfits, hsignal, rfl, rfl⟩ := decodeBusRead_eq_ok_iff.1 h
    · exact ⟨rfl, rfl⟩
    · exact ⟨by simp [Instr.wf, hfits, hsignal], rfl⟩

/-- Settles O2, instruction by instruction: the lengths that well-formedness bounds fit their fields, and each bus format
is told from the others by its first byte, its length or its address. -/
theorem decodeInvertsEncode : Obligations.DecodeInvertsEncode := by
  intro p dev i hlegal hwf
  cases i with
  | crcClr | crcShift | crcByte | wake | idle | sleep | decode | transmit | receive => rfl
  | crc16 data => exact decode_crc16 p dev (len_toNat (of_decide_eq_true hwf)).symm
  | encode opcode param1 param2 data =>
    exact decode_encode p dev opcode param1 param2 (len_toNat (of_decide_eq_true hwf)).symm
  | outFrame opcode param1 param2 data => exact decodeBusWrite_outFrame dev opcode param1 param2 (of_decide_eq_true hwf)
  | ctrlIdle => exact decodeBusWrite_ctrlIdle p dev
  | ctrlSleep => exact decodeBusWrite_ctrlSleep hlegal dev
  | wakePulse => exact if_pos ⟨rfl, rfl⟩
  | inFrame payload =>
    simp only [Instr.wf, Bool.and_eq_true, decide_eq_true_eq] at hwf
    exact decodeBusRead_eq_ok_iff.2 (.inr ⟨payload, hwf.1, hwf.2, rfl, rfl⟩)
  | wakeResponse => exact decodeBusRead_eq_ok_iff.2 (.inl ⟨rfl, rfl⟩)

/-- Settles O1: each listed word is the encoding of its instruction. -/
theorem listedWordsDecode : Obligations.ListedWordsDecode := by
  intro p dev hlegal
  have word : ∀ i : Instr, i.wf p = true → decode p dev (encode p dev i) = .ok i :=
    fun i hwf => decodeInvertsEncode p dev i hlegal hwf
  have hframe : inFrameBytes [0x00#8] = [0x04#8, 0x00#8, 0x03#8, 0x40#8] := by decide +kernel
  exact ⟨word .crcClr rfl, word (.crcShift true) rfl, word (.crcByte 0x04#8) rfl, word (.crc16 [0x04#8, 0x11#8]) rfl,
    word .wake rfl, word (.encode 0x17#8 0x80#8 0x0000#16 []) rfl, word (.receive 0x23#8) rfl, word .wakePulse rfl,
    word .ctrlIdle rfl, word .ctrlSleep rfl, word .wakeResponse rfl, hframe ▸ word (.inFrame [0x00#8]) rfl⟩

/-- The refusal branch of `step` for an input that stands for no instruction (R82). -/
theorem step_eq_refused_of_decode_error {s : State} {x : Input} {rest : List Input} {e : DecodeError}
    (hinputs : s.inputs = x :: rest) (hdecode : decode s.cfg s.devAddr x = .error e) :
    step s = .refused (.undecodable e) := by
  simp only [step, hinputs, hdecode]

/-- Settles O4: the listed numbers are those of the eleven operations, and the step refuses what the decoder does. -/
theorem unassignedOperationRefused : Obligations.UnassignedOperationRefused := by
  intro s r rest hinputs hop
  have hnumber : ∀ o : Operation, r.op ≠ o.number := by
    intro o hr
    rw [hr] at hop
    exact hop (by cases o <;> decide)
  exact step_eq_refused_of_decode_error hinputs (decodeRequest_unassigned hnumber)

/-! ### The zone id -/

/-- Settles O53: the byte is the length's bit above the zone's seven. -/
theorem zoneIdBits : Obligations.ZoneIdBits := by
  intro k zone length
  rw [Sequencer.zoneId]
  refine ⟨?_, ?_⟩
  · rw [BitVec.getLsbD_append]
    simp
  · apply BitVec.eq_of_getLsbD_eq
    intro i hi
    rw [BitVec.getLsbD_extractLsb', BitVec.getLsbD_append]
    simp [hi]

end Sys2Proof.Proofs

/-! The frames of the operations: what ENCODE builds, what the outbound formats write, and what RECEIVE and DECODE make of
a response frame on the bus. -/

namespace Sys2Proof.Proofs
open Sys2Proof.Machine

/-! ### ENCODE -/

/-- R70: the frame as its fields in their order. -/
theorem outFrameBytes_eq (pfx opcode param1 : Byte) (param2 : Half) (data : List Byte) :
    outFrameBytes pfx opcode param1 param2 data =
      pfx :: outCount data :: opcode :: param1 :: param2Low param2 :: param2High param2 ::
        (data ++ (crc16Of (outBody opcode param1 param2 data)).bytes) := rfl

section
variable {s : State} {data : List Byte} (opcode param1 : Byte) (param2 : Half)
  (hfits : Config.overhead + data.length ≤ s.cfg.maxTransfer.toNat)
include hfits

/-- R140: after an ENCODE that fits, `txbuf` holds the frame and above it what it held before. -/
theorem runEncode_readTx (k : Nat) : (runEncode opcode param1 param2 data s).readTx k =
    (outFrameBytes s.cfg.pfxCommand opcode param1 param2 data)[k]?.getD (s.readTx k) := by
  rw [runEncode_fits opcode param1 param2 hfits, State.complete_eq, State.finish_readTx, State.setCodecCrc_readTx,
    State.putFrame_readTx]
  split
  next hk => rw [List.getElem?_eq_getElem hk, Option.getD_some]
  next hk => rw [List.getElem?_eq_none (Nat.not_lt.1 hk), Option.getD_none]

/-- R141: the bytes that the CRC covers, read back from `txbuf`. -/
theorem runEncode_txSlice_body :
    (runEncode opcode param1 param2 data s).txSlice 1 (5 + data.length) = outBody opcode param1 param2 data := by
  rw [runEncode_fits opcode param1 param2 hfits, State.complete_eq, State.finish_txSlice, State.setCodecCrc_txSlice,
    State.putFrame_txSlice _ _ _ _ (by rw [outFrameBytes_length]; omega), ← outBody_length opcode param1 param2 data]
  exact List.take_left

/-- R141: the two bytes behind the data are the CRC's pair, low byte first. -/
theorem runEncode_readTx_crc :
    (runEncode opcode param1 param2 data s).readTx (6 + data.length) = (crc16Of (outBody opcode param1 param2 data)).lo ∧
      (runEncode opcode param1 param2 data s).readTx (7 + data.length) =
        (crc16Of (outBody opcode param1 param2 data)).hi := by
  simp only [runEncode_readTx opcode param1 param2 hfits, outFrameBytes_eq, Nat.add_comm _ data.length]
  simp [CrcPair.bytes]

end

/-- Settles O18: the two outcomes of `runEncode`; the bytes of `txbuf` are those of the frame just put there. -/
theorem encodeBuildsFrame : Obligations.EncodeBuildsFrame := by
  refine ⟨fun p dev opcode param1 param2 len data hlen => decode_encode p dev opcode param1 param2 hlen,
    fun s opcode param1 param2 data hlarge => congrArg _ (runEncode_large opcode param1 param2 hlarge), ?_⟩
  intro s opcode param1 param2 data hfits
  have hbyte := runEncode_readTx opcode param1 param2 hfits
  obtain ⟨hlo, hhi⟩ := runEncode_readTx_crc opcode param1 param2 hfits
  have hbody := runEncode_txSlice_body opcode param1 param2 hfits
  have hlen := putFrame_txLen_toNat s (p := s.cfg) ⟨opcode, param1, param2, data, hfits, rfl⟩
  rw [outFrameBytes_length] at hlen
  have hdata (k : Nat) (hk : k < data.length) : (runEncode opcode param1 param2 data s).readTx (6 + k) = data[k] := by
    rw [hbyte, outFrameBytes_eq, Nat.add_comm]
    simp [List.getElem?_append, hk]
  have habove (k : Nat) (hk : 8 + data.length ≤ k) :
      (runEncode opcode param1 param2 data s).readTx k = s.readTx k := by
    rw [hbyte, List.getElem?_eq_none (by rwa [outFrameBytes_length]), Option.getD_none]
  have hlast : (runEncode opcode param1 param2 data s).lastCrc = crc16Of (outBody opcode param1 param2 data) := by
    rw [runEncode_fits opcode param1 param2 hfits]
    rfl
  refine ⟨_, rfl, hbyte 0, hbyte 1, hbyte 2, hbyte 3, hbyte 4, hbyte 5, hdata, by rw [hlast, hbody],
    by rw [hlo, hlast], by rw [hhi, hlast], ?_, ?_, ?_, ?_, habove, ?_, ?_⟩
  all_goals rw [runEncode_fits opcode param1 param2 hfits]
  · exact hlen
  · exact (crcPair_join _).symm
  · rfl
  · rfl
  · exact fun k => State.readRx_congr rfl k
  · rfl

/-! ### The wire formats -/

/-- R61, R65: a transport write adds its event and uses up its answer. -/
theorem trWrite_snd_eq (s : State) (a : BusAddr) (c : List Byte) :
    (s.trWrite a c).2 = { s.dropAck with trace := s.trace ++ [.wr a c s.nextAck] } := by
  simp [State.logEvent]

/-- Settles O34: each outbound format is `State.trWrite` of its bytes. -/
theorem outboundFormatsAreOneWrite : Obligations.OutboundFormatsAreOneWrite := by
  intro s
  exact ⟨fun opcode param1 param2 data => congrArg _ (trWrite_snd_eq s _ _), congrArg _ (trWrite_snd_eq s _ _),
    congrArg _ (trWrite_snd_eq s _ _), congrArg _ (trWrite_snd_eq s _ _)⟩

/-! ### A response frame -/

/-- R144 to R147: a response frame that is collected whole passes both tests of DECODE, and its payload is the slice. -/
theorem collected_inFrame_decodes {s : State} {c payload : List Byte} (h : s.Collected c)
    (hframe : c = inFrameBytes payload) (hmax : c.length ≤ Config.rxbufCap) :
    s.countFails = false ∧ s.crcFails = false ∧ s.rxPayload = payload := by
  obtain ⟨hmin, hcount, hcrc, hpayload⟩ := eq_inFrameBytes_iff.1 hframe
  have htotal : s.rxTotal.toNat = c.length := h.total.trans (Nat.min_eq_left (hmax.trans (by decide)))
  have hslice (i n : Nat) (hin : i + n ≤ c.length) : s.rxSlice i n = (c.drop i).take n := by
    rw [State.rxSlice_sub s i n hin, h.rxSlice hmax]
  refine ⟨?_, ?_, ?_⟩
  · have hfirst : s.readRx 0 = s.rxTotal := by
      rw [List.head?_eq_getElem?, List.getElem?_eq_getElem (by omega)] at hcount
      rw [h.readRx (by omega) hmax, Option.some.inj hcount, ← htotal, BitVec.ofNat_toNat, BitVec.setWidth_eq]
    simp only [State.countFails, htotal, hfirst, ne_eq, not_true_eq_false, decide_false, Bool.or_false,
      Bool.or_eq_false_iff, decide_eq_false_iff_not]
    omega
  · rw [State.crcFails, State.rxCrc, htotal, hslice _ _ (by omega), hslice _ _ (by omega), List.drop_zero, hcrc]
    exact decide_eq_false (not_not.2 rfl)
  · rw [State.rxPayload, htotal, hslice _ _ (by omega), hpayload]

/-- R162: RECEIVE after steps that reached the total. -/
theorem runReceive_of_steps_ok {s t : State} {n : Byte} (h : s.receiveSteps n = (.ok, t))
    (hdone : t.exhausted = false) : runReceive n s = (t.setPs .ready).finish .ok t.receivedOutput := by
  simp [runReceive, h, hdone]

/-- Settles O36: the reads bring the frame whole, and a frame collected whole decodes to its payload. -/
theorem inboundFrameIsDecoded : Obligations.InboundFrameIsDecoded := by
  intro s payload hfits hbus
  have hmax : (inFrameBytes payload).length ≤ Config.rxbufCap := by rwa [inFrameBytes_length]
  have hlen : (inFrameBytes payload).length = min (BitVec.ofNat 8 (payload.length + 3)).toNat Config.rxbufCap := by
    rw [inFrameBytes_length, BitVec.toNat_ofNat, Nat.mod_eq_of_lt (by omega), Nat.min_eq_left hfits]
  obtain ⟨t, hsteps, g, hrest, -, hdone⟩ := (s.offerFrame (inFrameBytes payload)).receiveSteps_frame
    (BitVec.ofNat 8 (payload.length + 3)) (inFrameBytes payload) [] (by simp [hbus]) hlen (List.cons_ne_nil _ _)
  have hcollected : ((t.setPs .ready).finish .ok t.receivedOutput).Collected (inFrameBytes payload) :=
    (delivered_readSchedule _ _ ▸ g.collected).congr rfl rfl rfl
  obtain ⟨hcount, hcrc, hpayload⟩ := collected_inFrame_decodes hcollected rfl hmax
  have hreceive : exec (.receive (BitVec.ofNat 8 (payload.length + 3))) (s.offerFrame (inFrameBytes payload)) =
      .next ((t.setPs .ready).finish .ok t.receivedOutput) := congrArg _ (runReceive_of_steps_ok hsteps hdone)
  refine ⟨_, by rw [execAll_cons_next (exec_inFrame payload s), execAll_cons_next hreceive]; rfl, ?_⟩
  rw [runDecode_ok hcount hcrc]
  exact ⟨rfl, congrArg _ hpayload, rfl, hrest⟩

end Sys2Proof.Proofs

/-! The CRC unit (R100 to R109): each operation as a write of the register and an ending, and a run of such operations as
a fold of their steps. -/

namespace Sys2Proof.Proofs
open Sys2Proof.Machine

/-! ### The operations -/

theorem exec_crcClr (s : State) : exec .crcClr s = .next ((s.setCrc 0x0000#16).complete .none) := rfl

theorem exec_crcShift (d : Bool) (s : State) :
    exec (.crcShift d) s = .next ((s.setCrc (crcShiftStep s.crcReg d)).complete .none) := rfl

theorem exec_crcByte (b : Byte) (s : State) :
    exec (.crcByte b) s = .next ((s.setCrc (crcByteStep s.crcReg b)).complete .none) := rfl

theorem exec_crc16 (data : List Byte) (s : State) :
    exec (.crc16 data) s = .next ((s.setCrc (crcRegOf data)).complete (.crc (crc16Of data))) := rfl

/-- R103: whatever the register held, CRC16 leaves the one of its data. -/
theorem crcReg_of_exec_crc16 {data : List Byte} {s t : State} (h : exec (.crc16 data) s = .next t) :
    t.crcReg = crcRegOf data := by
  rw [exec_crc16] at h
  exact Host.Outcome.next.inj h ▸ rfl

theorem output_of_exec_crc16 {data : List Byte} {s t : State} (h : exec (.crc16 data) s = .next t) :
    t.output = .crc (crc16Of data) := by
  rw [exec_crc16] at h
  exact Host.Outcome.next.inj h ▸ rfl

/-! ### Runs of register steps -/

/-- Operations that each take one step of the register and end with `Ok` take, one after another, the fold of their
steps; each overwrites the ending of the one before. -/
theorem execAll_map_crcSteps {α : Type} {instr : α → Instr} {f : Half → α → Half}
    (hstep : ∀ x s, exec (instr x) s = .next ((s.setCrc (f s.crcReg x)).complete .none)) (s : State) (xs : List α)
    (r : Half) : execAll (xs.map instr) ((s.setCrc r).complete .none) =
      .next ((s.setCrc (xs.foldl f r)).complete .none) := by
  induction xs generalizing r with
  | nil => rfl
  | cons x xs ih => exact (execAll_cons_next (hstep x _)).trans (ih (f r x))

theorem crcBytesStep_eq_foldl (r : Half) (data : List Byte) : crcBytesStep r data = data.foldl crcByteStep r := by
  induction data generalizing r with
  | nil => rfl
  | cons b bs ih => exact ih (crcByteStep r b)

theorem crcRegOf_eq_foldl (data : List Byte) : crcRegOf data = data.foldl crcByteStep 0x0000#16 :=
  crcBytesStep_eq_foldl _ data

/-! ### CRC_CLR -/

/-- Settles O9: the decoder's row and the operation's two register writes, each by evaluation. -/
theorem crcClrClears : Obligations.CrcClrClears := ⟨fun _ _ => rfl, exec_crcClr⟩

/-! ### CRC_SHIFT -/

/-- R101 with the polynomial written out, and with the equal bits first. -/
theorem crcShiftStep_eq_ite (r : Half) (d : Bool) :
    crcShiftStep r d = if d = r.getLsbD 15 then r <<< 1 else (r <<< 1) ^^^ 0x8005#16 := ite_not _ _ _

/-- Settles O10, from the step's equation. -/
theorem crcShiftOneBit : Obligations.CrcShiftOneBit := by
  refine ⟨fun _ _ _ => rfl, fun s d => ?_⟩
  rw [exec_crcShift, crcShiftStep_eq_ite]
  rfl

/-- R104: the set bits of the polynomial are the taps. -/
theorem poly_getLsbD {i : Nat} (h : i < 16) : Config.poly.getLsbD i = decide (i = 0 ∨ i = 2 ∨ i = 15) := by
  revert i
  decide

/-- Settles O11: a bit of the register after the shift is the bit below it, and at a tap `d` and the old top bit are
added. -/
theorem crcShiftTaps : Obligations.CrcShiftTaps := by
  intro s d
  have hbit (i : Nat) (hi : i < 16) : (crcShiftStep s.crcReg d).getLsbD i =
      Bool.xor (decide (1 ≤ i) && s.crcReg.getLsbD (i - 1))
        (Bool.xor d (s.crcReg.getLsbD 15) && decide (i = 0 ∨ i = 2 ∨ i = 15)) := by
    rw [crcShiftStep_getLsbD _ _ _ hi, poly_getLsbD hi]
  refine ⟨_, exec_crcShift d s, ?_, ?_, ?_, fun i hlow hhigh => ?_, ?_⟩
  · simpa using hbit 0 (by omega)
  · simpa using hbit 1 (by omega)
  · simpa using hbit 2 (by omega)
  · have hshifted : 1 ≤ i := by omega
    have huntapped : ¬ (i = 0 ∨ i = 2 ∨ i = 15) := by omega
    simpa [hshifted, huntapped] using hbit i (by omega)
  · simpa using hbit 15 (by omega)

/-! ### CRC_BYTE -/

/-- Settles O12: the first shift starts from the register as it is, and the seven after it are a run of steps. -/
theorem crcByteIsEightShifts : Obligations.CrcByteIsEightShifts := by
  refine ⟨fun _ _ _ => rfl, fun s b => ⟨_, exec_crcByte b s, ?_, rfl⟩⟩
  rw [execAll_cons_next (exec_crcShift _ s)]
  exact execAll_map_crcSteps exec_crcShift s [b.getLsbD 1, b.getLsbD 2, b.getLsbD 3, b.getLsbD 4, b.getLsbD 5,
    b.getLsbD 6, b.getLsbD 7] _

/-! ### CRC16 -/

/-- Settles O13: after CRC_CLR the bytes are a run of steps from 0, and the register CRC16 leaves is their fold. -/
theorem crc16IsClearThenBytes : Obligations.Crc16IsClearThenBytes := by
  refine ⟨fun p dev _ _ hlen => decode_crc16 p dev hlen, fun s data => ⟨(s.setCrc (crcRegOf data)).complete .none, ?_,
    exec_crc16 data s, rfl⟩⟩
  rw [execAll_cons_next (exec_crcClr s), execAll_map_crcSteps exec_crcByte, crcRegOf_eq_foldl]

/-- Settles O14: CRC16's output and register are those of its data; from the registers 0 and 1 one step leads to
different ones. -/
theorem crc16DependsOnDataAlone : Obligations.Crc16DependsOnDataAlone := by
  have hshift : crcShiftStep 0x0000#16 false ≠ crcShiftStep 0x0001#16 false := by decide
  have hbyte : crcByteStep 0x0000#16 0x00#8 ≠ crcByteStep 0x0001#16 0x00#8 := by decide
  refine ⟨fun s s' t t' data h h' => ⟨?_, ?_⟩, ?_, ?_⟩
  · rw [output_of_exec_crc16 h, output_of_exec_crc16 h']
  · rw [crcReg_of_exec_crc16 h, crcReg_of_exec_crc16 h']
  · exact ⟨State.reset.setCrc 0x0000#16, State.reset.setCrc 0x0001#16, _, _, false, exec_crcShift _ _,
      exec_crcShift _ _, hshift⟩
  · exact ⟨State.reset.setCrc 0x0000#16, State.reset.setCrc 0x0001#16, _, _, 0x00#8, exec_crcByte _ _,
      exec_crcByte _ _, hbyte⟩

/-- Settles O15: the zero bytes leave the cleared register at 0. -/
theorem leadingZerosInvisible : Obligations.LeadingZerosInvisible := by
  intro s n data
  have hreg : crcRegOf (List.replicate n 0x00#8 ++ data) = crcRegOf data := by
    rw [crcRegOf, crcBytesStep_append, crcBytesStep_zeros, crcRegOf]
  rw [exec_crc16, exec_crc16, crc16Of, crc16Of, hreg]

/-- R107 (b) on the register: the start value 0 is the XOR of the two start values. -/
theorem crcRegOf_zipWith_xor {a b : List Byte} (hlen : a.length = b.length) :
    crcRegOf (List.zipWith (· ^^^ ·) a b) = crcRegOf a ^^^ crcRegOf b :=
  crcBytesStep_xor a b hlen Config.crcSeed Config.crcSeed

/-- Settles O16, from the linearity of the byte steps. -/
theorem crc16Linear : Obligations.Crc16Linear := by
  intro s t ta tb a b hlen h ha hb
  rw [crcReg_of_exec_crc16 h, crcReg_of_exec_crc16 ha, crcReg_of_exec_crc16 hb, crcRegOf_zipWith_xor hlen]

/-- R109: the two generators take the same step for a byte and its reversal, so their folds agree. -/
theorem msbFirstCrc_map_reverseBits (data : List Byte) : msbFirstCrc (data.map reverseBits) = crcRegOf data := by
  simp only [msbFirstCrc, List.foldl_map, msbFirstByte_reverse, crcRegOf_eq_foldl]

/-- Settles O17, from the agreement of the two generators. -/
theorem crc16IsReflectedMsbFirst : Obligations.Crc16IsReflectedMsbFirst := by
  intro s data
  exact ⟨_, exec_crc16 data s, (msbFirstCrc_map_reverseBits data).symm⟩

end Sys2Proof.Proofs

/-! The power-state controller (R120 to R126): the three operations by the answers they get, and the moves of `ps`. -/

namespace Sys2Proof.Proofs
open Sys2Proof.Machine

/-! ### The operations -/

theorem exec_wake (s : State) : exec .wake s = .next (runWake s) := rfl

theorem exec_idle (s : State) : exec .idle s = .next (runIdle s) := rfl

theorem exec_sleep (s : State) : exec .sleep s = .next (runSleep s) := rfl

/-! ### WAKE by its own steps -/

/-- R120 lines 1 and 2, as the state they leave. -/
theorem wakePulseAndWait_eq_update (s : State) :
    s.wakePulseAndWait = { s.dropAck with trace := s.trace ++ [.wr s.cfg.wakeAddr [] s.nextAck, .dly 1500] } := by
  simp [State.logEvent, State.trDelay]

/-- The receive steps of WAKE leave `ps` alone (R120). -/
theorem wakeSteps_ps {s t : State} {r : ResultCode} {es : List Event}
    (g : s.wakePulseAndWait.StepsSpec 4#8 r t es) : t.ps = s.ps := by simpa using g.frame.ps

/-- R168: RECEIVE after steps that used up the attempts. -/
theorem runReceive_of_steps_exhausted {s t : State} {n : Byte} (h : s.receiveSteps n = (.ok, t))
    (hex : t.exhausted = true) : runReceive n s = t.finish .ok t.receivedOutput := by
  simp [runReceive, h, hex]

/-- R169: RECEIVE after a read that failed. -/
theorem runReceive_of_steps_failed {s t : State} {n : Byte} (h : s.receiveSteps n = (.busError, t)) :
    runReceive n s = t.finish .busError .none := by
  simp [runReceive, h]

/-- WAKE after receive steps that reached the total, when `t1` is the state RECEIVE ends in: the signal test, then the
ending of DECODE with WAKE's own `ps` and no output. -/
theorem judgeWake_eq_decode {t t1 : State} {o : Output} (hdone : t.exhausted = false)
    (ht1 : t1 = (t.setPs .ready).finish .ok o) : t.judgeWake =
      if t1.readRx 1 ≠ 0x11#8 then { t1 with ps := t.ps, err := .noResponse, output := .none }
      else if (runDecode t1).err = .ok then { runDecode t1 with ps := .ready, output := .none }
      else { runDecode t1 with ps := t.ps, output := .none } := by
  obtain ⟨hcountEq, hcrcEq, hrxCrc, -⟩ : t1.countFails = t.countFails ∧ t1.crcFails = t.crcFails ∧
      t1.rxCrc = t.rxCrc ∧ t1.rxPayload = t.rxPayload := State.decode_reads (by simp [ht1]) (by simp [ht1])
  have hsignal : t1.readRx 1 = t.readRx 1 := by simp [ht1]
  rw [hsignal]
  obtain ⟨hex, -⟩ | ⟨-, h1, e⟩ | ⟨-, h1, hcount, e⟩ | ⟨-, h1, hcount, hcrc, e⟩ | ⟨-, h1, hcount, hcrc, e⟩ :=
    t.judgeWake_cases
  · rw [hdone] at hex
    exact nomatch hex
  · rw [if_pos h1, e, ht1]
    rfl
  · rw [if_neg (not_not.2 h1), runDecode_count (hcountEq.trans hcount), if_neg (by simp), e, ht1]
    rfl
  · rw [if_neg (not_not.2 h1), runDecode_crc (hcountEq.trans hcount) (hcrcEq.trans hcrc), if_neg (by simp), e, hrxCrc,
      ht1]
    rfl
  · rw [if_neg (not_not.2 h1), runDecode_ok (hcountEq.trans hcount) (hcrcEq.trans hcrc), if_pos (by simp), e, hrxCrc,
      ht1]
    rfl

/-- Settles O30: WAKE and RECEIVE 4 make the same receive steps; after them `judgeWake` makes the tests and the decode
steps. -/
theorem wakeRunsPulseReceiveChecks : Obligations.WakeRunsPulseReceiveChecks := by
  refine ⟨fun _ _ => rfl, fun s => ⟨runReceive 4#8 s.wakePulseAndWait, _, ?_, rfl, ?_⟩⟩
  · rw [← wakePulseAndWait_eq_update]
    rfl
  obtain ⟨es, r, t, g, hsteps, ends⟩ := runWake_cases s
  rw [exec_wake, ← wakeSteps_ps g]
  obtain ⟨rfl, e⟩ | ⟨rfl, e⟩ := ends
  · have hreceive := runReceive_of_steps_failed hsteps
    rw [if_pos (by rw [hreceive]; rfl), hreceive, e]
    rfl
  cases hex : t.exhausted with
  | true =>
    have hreceive := runReceive_of_steps_exhausted hsteps hex
    rw [if_neg (by rw [hreceive]; exact nofun), if_pos (by rw [hreceive]; exact hex), hreceive, e, State.judgeWake,
      if_pos hex]
    rfl
  | false =>
    have hreceive := runReceive_of_steps_ok hsteps hex
    rw [if_neg (by rw [hreceive]; exact nofun), if_neg (by rw [hreceive]; exact Bool.eq_false_iff.1 hex), e,
      judgeWake_eq_decode hex hreceive]

/-! ### WAKE by the four bytes -/

/-- What the tests of R120 see of four bytes that were collected. -/
theorem collected_four_checks {t : State} {c0 c1 c2 c3 : Byte} (h : t.Collected [c0, c1, c2, c3]) :
    t.readRx 1 = c1 ∧ t.rxTotal = 4#8 ∧ t.rxCrc = crcRegOf [c0, c1] ∧
      t.countFails = decide (c0 ≠ 4#8) ∧ t.crcFails = decide ([c2, c3] ≠ (crc16Of [c0, c1]).bytes) := by
  have hfits : [c0, c1, c2, c3].length ≤ Config.rxbufCap := by simp [Config.rxbufCap]
  have htotal : t.rxTotal = 4#8 := BitVec.eq_of_toNat_eq h.total
  have hslice (i n : Nat) (hin : i + n ≤ 4) : t.rxSlice i n = ([c0, c1, c2, c3].drop i).take n := by
    rw [State.rxSlice_sub t i n hin, ← h.rxSlice hfits]
    rfl
  have hcrc : t.rxCrc = crcRegOf [c0, c1] := by
    rw [State.rxCrc, htotal, hslice _ _ (by decide)]
    rfl
  refine ⟨h.readRx (k := 1) (by simp) hfits, htotal, hcrc, ?_, ?_⟩
  · have hcount : t.readRx 0 = c0 := h.readRx (k := 0) (by simp) hfits
    simp [State.countFails, htotal, hcount, Config.rxbufCap]
  · rw [State.crcFails, hcrc, htotal, hslice _ _ (by decide)]
    rfl

/-- R75, R122: the CRC of the wake response's count and signal byte. -/
theorem crc16Of_wake : crc16Of [0x04#8, 0x11#8] = ⟨0x33#8, 0x43#8⟩ := by decide +kernel

/-- R122: the outcome of WAKE's tests by the four bytes collected. -/
theorem judgeWake_of_four {t : State} {c0 c1 c2 c3 : Byte} (h : t.Collected [c0, c1, c2, c3])
    (hdone : t.exhausted = false) :
    t.judgeWake.err = (if c1 ≠ 0x11#8 then .noResponse else if c0 ≠ 0x04#8 then .countMismatch
        else if c2 ≠ 0x33#8 ∨ c3 ≠ 0x43#8 then .crcMismatch else .ok) ∧
      t.judgeWake.ps = (if t.judgeWake.err = .ok then .ready else t.ps) ∧
      t.judgeWake.lastCrc = (if c1 = 0x11#8 ∧ c0 = 0x04#8 then ⟨0x33#8, 0x43#8⟩ else t.lastCrc) := by
  obtain ⟨hsignal, -, hrxCrc, hcount, hcrc⟩ := collected_four_checks h
  have ends := t.judgeWake_cases
  rw [hdone, hsignal, hcount, hcrc, hrxCrc] at ends
  obtain ⟨hex, -⟩ | ⟨-, h1, e⟩ | ⟨-, h1, h0, e⟩ | ⟨-, rfl, h0, hfail, e⟩ | ⟨-, rfl, h0, hpass, e⟩ := ends
  · exact nomatch hex
  · simp [e, h1]
  · simp [e, h1, of_decide_eq_true h0]
  · obtain rfl : c0 = 4#8 := not_not.1 (of_decide_eq_false h0)
    have hwrong : c2 ≠ 0x33#8 ∨ c3 ≠ 0x43#8 := by
      simpa [crc16Of_wake, CrcPair.bytes, ← not_and_or] using hfail
    simp [e, hwrong, ← crc16Of_wake, crc16Of]
  · obtain rfl : c0 = 4#8 := not_not.1 (of_decide_eq_false h0)
    have hright : c2 = 0x33#8 ∧ c3 = 0x43#8 := by
      simpa [crc16Of_wake, CrcPair.bytes] using hpass
    simp [e, hright, ← crc16Of_wake, crc16Of]

theorem judgeWake_keeps_engine (t : State) : t.judgeWake.exhausted = t.exhausted ∧ t.judgeWake.rxTotal = t.rxTotal ∧
    t.judgeWake.attempts = t.attempts ∧ t.judgeWake.output = .none := by
  obtain ⟨-, e⟩ | ⟨-, -, e⟩ | ⟨-, -, -, e⟩ | ⟨-, -, -, -, e⟩ | ⟨-, -, -, -, e⟩ := t.judgeWake_cases <;> rw [e] <;>
    exact ⟨rfl, rfl, rfl, rfl⟩

/-- R120: WAKE after receive steps that ended without an error. -/
theorem runWake_of_steps_ok {s t : State} (h : s.wakePulseAndWait.receiveSteps 4#8 = (.ok, t)) :
    runWake s = t.judgeWake := by
  simp only [runWake, Config.wakeRespLen, h]

/-- Settles O31: one read brings the four bytes, and `judgeWake` decides by them. -/
theorem wakeOutcomeByBytes : Obligations.WakeOutcomeByBytes := by
  intro s c0 c1 c2 c3 rest hbus
  obtain ⟨t, hsteps, g, -, -, hdone⟩ := s.wakePulseAndWait.receiveSteps_frame 4#8 [c0, c1, c2, c3] rest
    (by simpa using hbus) rfl (by simp)
  have hcollected := g.collected
  rw [delivered_readSchedule] at hcollected
  rw [readSchedule_short _ (by simp) (by simp)] at g
  have hattempts : t.attempts = 1#5 := BitVec.eq_of_toNat_eq g.attempts
  have hlastCrc : t.lastCrc = s.lastCrc := by simpa using g.frame.lastCrc
  obtain ⟨-, htotal, -⟩ := collected_four_checks hcollected
  obtain ⟨herr, hps, hlast⟩ := judgeWake_of_four hcollected hdone
  obtain ⟨kexhausted, ktotal, kattempts, koutput⟩ := judgeWake_keeps_engine t
  rw [wakeSteps_ps g] at hps
  rw [hlastCrc] at hlast
  refine ⟨t.judgeWake, congrArg Host.Outcome.next (runWake_of_steps_ok hsteps), herr, hps, hlast, kexhausted.trans hdone,
    ktotal.trans htotal, kattempts.trans hattempts, koutput, ?_⟩
  rw [judgeWake_trace, g.trace]
  simp

/-! ### The moves of `ps` -/

theorem runWake_ps (s : State) : (runWake s).ps = if (runWake s).err = .ok then .ready else s.ps := by
  obtain ⟨es, r, t, g, -, ⟨-, e⟩ | ⟨-, e⟩⟩ := runWake_cases s <;> rw [e, ← wakeSteps_ps g]
  · rfl
  · obtain ⟨-, e⟩ | ⟨-, -, e⟩ | ⟨-, -, -, e⟩ | ⟨-, -, -, -, e⟩ | ⟨-, -, -, -, e⟩ := t.judgeWake_cases <;> rw [e] <;> rfl

theorem runTransmit_ps (s : State) :
    (runTransmit s).ps = if (runTransmit s).err = .ok then .awaitingResponse else s.ps := by
  obtain ⟨-, e⟩ | ⟨-, e⟩ := runTransmit_cases s <;> simp [e]

theorem runReceive_ps (n : Byte) (s : State) : (runReceive n s).ps =
    if (runReceive n s).err = .ok ∧ (runReceive n s).exhausted = false then .ready else s.ps := by
  obtain ⟨es, r, t, g, -, ⟨-, hex, e⟩ | ⟨-, hex, e⟩ | ⟨-, e⟩⟩ := runReceive_cases n s
  · simp [e, hex]
  · simp [e, hex, g.frame.ps]
  · simp [e, g.frame.ps]

theorem runIdle_ps (s : State) : (runIdle s).ps = if (runIdle s).err = .ok then .idle else s.ps := by
  obtain ⟨-, e⟩ | ⟨-, e⟩ := runIdle_cases s <;> simp [e]

theorem runSleep_ps (s : State) : (runSleep s).ps =
    if (runSleep s).err = .ok then .sleeping else if s.nextAck = .ok then .idle else s.ps := by
  obtain ⟨hack, e⟩ | ⟨-, -, e⟩ | ⟨hack, -, e⟩ := runSleep_cases s
  · simp [e, hack]
  · simp [e]
  · simp [e, hack]

/-- Settles O40: five operations write `ps`, each by its cases; the access matrix has no `W` for the others. -/
theorem powerStateTransitions : Obligations.PowerStateTransitions := by
  intro i s t h
  cases i with
  | wake => exact Host.Outcome.next.inj h ▸ runWake_ps s
  | transmit => exact (exec_transmit_next h).2 ▸ runTransmit_ps s
  | receive n => exact Host.Outcome.next.inj h ▸ runReceive_ps n s
  | idle => exact Host.Outcome.next.inj h ▸ runIdle_ps s
  | sleep => exact Host.Outcome.next.inj h ▸ runSleep_ps s
  | _ => exact (exec_keepsUnwritten h).ps rfl

/-- R126: only a TRANSMIT makes `ps` AwaitingResponse. -/
theorem exec_awaits_only_by_transmit {i : Instr} {s t : State} (h : exec i s = .next t)
    (hbefore : s.ps ≠ .awaitingResponse) (hafter : t.ps = .awaitingResponse) : i = .transmit := by
  have hps := powerStateTransitions i s t h
  cases i with
  | transmit => rfl
  | wake | receive | idle | sleep =>
    simp only [hafter] at hps
    split_ifs at hps
    all_goals exact absurd hps.symm hbefore
  | _ => exact absurd (hps.symm.trans hafter) hbefore

/-- Settles O41: only TRANSMIT leads to AwaitingResponse, and its legal column is Ready alone. -/
theorem commandNeedsWake : Obligations.CommandNeedsWake := by
  intro i s t h hlegal hasleep hawaiting
  have hbefore : s.ps ≠ .awaitingResponse := by
    obtain hs | hs := hasleep <;> simp [hs]
  obtain rfl := exec_awaits_only_by_transmit h hbefore hawaiting
  have hready : s.ps = .ready := of_decide_eq_true hlegal
  simp [hready] at hasleep

/-! ### IDLE and SLEEP by their answers -/

/-- Settles O32, by the answer of the one write. -/
theorem idleSendsIdleByte : Obligations.IdleSendsIdleByte := by
  refine ⟨fun _ _ => rfl, fun s hack => ?_, fun s hack => ?_⟩
  · simp [exec_idle, runIdle_ok hack, State.logEvent, State.setPs, State.finish]
  · simp [exec_idle, runIdle_err hack, State.logEvent, State.finish]

theorem logEvent_dropAck (s : State) (e : Event) : (s.logEvent e).dropAck = s.dropAck.logEvent e := by
  cases h : s.writeAnswers <;> simp [State.dropAck, State.logEvent, h]

theorem setPs_dropAck (s : State) (p : PowerState) : (s.setPs p).dropAck = s.dropAck.setPs p := by
  cases h : s.writeAnswers <;> simp [State.dropAck, State.setPs, h]

/-- Settles O33, by the answers of the two writes. -/
theorem sleepSendsIdleThenSleep : Obligations.SleepSendsIdleThenSleep := by
  refine ⟨fun _ _ => rfl, fun s hack => ?_, fun s hack hack' => ?_, fun s hack hack' => ?_⟩
  · simp [exec_sleep, runSleep_err hack, State.logEvent, State.finish]
  · rw [exec_sleep, runSleep_ok_ok hack hack', setPs_dropAck, logEvent_dropAck]
    simp [State.logEvent, State.setPs, State.finish]
  · rw [exec_sleep, runSleep_ok_err hack hack', setPs_dropAck, logEvent_dropAck]
    simp [State.logEvent, State.setPs, State.finish]

/-! ### SLEEP and the device -/

/-- R124: a SLEEP that ended with `Ok` wrote both bytes, and both were taken. -/
theorem runSleep_ok_trace {s : State} (hok : (runSleep s).err = .ok) :
    (runSleep s).trace = s.trace ++ [.wr s.devAddr [s.cfg.pfxIdle] .ok, .wr s.devAddr [s.cfg.pfxSleep] .ok] := by
  obtain ⟨-, e⟩ | ⟨hack, hack', -⟩ | ⟨-, -, e⟩ := runSleep_cases s
  · rw [e] at hok
    exact nomatch hok
  · rw [runSleep_trace_eq, hack, hack', if_pos rfl]
  · rw [e] at hok
    exact nomatch hok

/-- R124: the sleep byte that was taken. -/
theorem deviceAfterEvent_sleep_ok {p : Params} (hlegal : p.Legal) (dev : BusAddr) (d : DeviceState) :
    deviceAfterEvent p dev d (.wr dev [p.pfxSleep] .ok) = deviceAfterSleep d := by
  obtain ⟨-, -, hne, -⟩ := hlegal
  simp [deviceAfterEvent, hne.symm]

/-- R40, U6: the two bytes take an awake device to Idle, and from there it may sleep or stay. -/
theorem devicesAfter_idle_sleep_ok {p : Params} (hlegal : p.Legal) (dev : BusAddr) (ds : List DeviceState) :
    devicesAfter p dev ds [.wr dev [p.pfxIdle] .ok, .wr dev [p.pfxSleep] .ok] =
      (ds.flatMap deviceAfterIdle).flatMap deviceAfterSleep := by
  simp [devicesAfter, deviceAfterEvent_idle_ok, deviceAfterEvent_sleep_ok hlegal]

/-- Settles O59: the idle byte makes an awake device idle, and the sleep byte leaves an idle one both ways open; after a
breach every device state is allowed. -/
theorem sleepLeavesBothOutcomesOpen : Obligations.SleepLeavesBothOutcomesOpen := by
  intro p s t h hok hlegal ⟨d, hd, hawake⟩
  by_cases hbroken : t.dutyBroken p = true
  · exact ⟨t.possibleDevices_of_broken p hbroken _, t.possibleDevices_of_broken p hbroken _⟩
  obtain rfl := Host.Outcome.next.inj h
  have hidle : ⟨.idle, true⟩ ∈ (s.possibleDevices p).flatMap deviceAfterIdle :=
    List.mem_flatMap.2 ⟨d, hd, by simp [deviceAfterIdle, hawake]⟩
  rw [exec_possibleDevices p h (runSleep_ok_trace hok) (Bool.eq_false_of_not_eq_true hbroken),
    devicesAfter_idle_sleep_ok hlegal]
  exact ⟨List.mem_flatMap.2 ⟨_, hidle, by simp [deviceAfterSleep]⟩,
    List.mem_flatMap.2 ⟨_, hidle, by simp [deviceAfterSleep]⟩⟩

end Sys2Proof.Proofs

/-! The codec (R140 to R150): DECODE by its two tests, and the bytes it accepts as exactly the inbound frames of R72. -/

namespace Sys2Proof.Proofs
open Sys2Proof.Machine Sys2Proof.Sequencer

/-! ### DECODE -/

theorem exec_decode (s : State) : exec .decode s = .next (runDecode s) := rfl

theorem crcPair_rxCrc (s : State) : crcPair s.rxCrc = crc16Of (s.rxSlice 0 (s.rxTotal.toNat - 2)) := rfl

/-- R144: what passes the count test. -/
theorem countFails_eq_false_iff (s : State) : s.countFails = false ↔
    3 ≤ s.rxTotal.toNat ∧ s.rxTotal.toNat ≤ 128 ∧ (s.readRx 0).toNat = s.rxTotal.toNat := by
  rw [← Bool.not_eq_true, s.countFails_iff, not_or, not_or, not_lt, not_lt, not_not]

/-- R146: what passes the CRC test. -/
theorem crcFails_eq_false_iff {s : State} (h : 3 ≤ s.rxTotal.toNat) : s.crcFails = false ↔
    s.readRx (s.rxTotal.toNat - 2) = (crcPair s.rxCrc).lo ∧ s.readRx (s.rxTotal.toNat - 1) = (crcPair s.rxCrc).hi := by
  rw [← Bool.not_eq_true, s.crcFails_iff h, not_or, not_not, not_not]

/-- Settles O19: the two tests decide which of the three endings `runDecode` takes. -/
theorem decodeChecksCountThenCrc : Obligations.DecodeChecksCountThenCrc := by
  refine ⟨fun _ _ => rfl, ?_⟩
  rintro s _ _ rfl rfl
  rw [exec_decode, ← crcPair_rxCrc, crcPair_join]
  refine ⟨fun hcount => ?_, fun hmin hmax hfirst hcrc => ?_, fun hmin hmax hfirst hlo hhi => ?_⟩
  · rw [runDecode_count (s.countFails_iff.2 hcount)]
    rfl
  · rw [runDecode_crc ((countFails_eq_false_iff s).2 ⟨hmin, hmax, hfirst⟩) ((s.crcFails_iff hmin).2 hcrc)]
    rfl
  · rw [runDecode_ok ((countFails_eq_false_iff s).2 ⟨hmin, hmax, hfirst⟩) ((crcFails_eq_false_iff hmin).2 ⟨hlo, hhi⟩)]
    rfl

/-- Settles O20: DECODE keeps what its tests look at, so it takes the same ending again. -/
theorem decodeRepeats : Obligations.DecodeRepeats := by
  intro s t h
  obtain rfl := Host.Outcome.next.inj h
  have keeps := runDecode_keepsUnwritten s
  obtain ⟨hcountEq, hcrcEq, hrxCrc, hpayload⟩ := State.decode_reads (keeps.rxbuf rfl) (keeps.rxTotal rfl)
  rw [exec_decode]
  obtain ⟨hcount, e⟩ | ⟨hcount, hcrc, e⟩ | ⟨hcount, hcrc, e⟩ := runDecode_cases s
  · rw [runDecode_count (hcountEq.trans hcount), e]
    rfl
  · rw [runDecode_crc (hcountEq.trans hcount) (hcrcEq.trans hcrc), hrxCrc, e]
    rfl
  · rw [runDecode_ok (hcountEq.trans hcount) (hcrcEq.trans hcrc), hrxCrc, hpayload, e]
    rfl

/-! ### The round trip -/

/-- R70, R72: behind its first byte a command frame is the inbound frame of its header bytes and data. -/
theorem outFrameBytes_eq_cons_inFrameBytes (pfx opcode param1 : Byte) (param2 : Half) (data : List Byte) :
    outFrameBytes pfx opcode param1 param2 data =
      pfx :: inFrameBytes ([opcode, param1, param2Low param2, param2High param2] ++ data) := by
  have hcount : Config.overhead + data.length =
      ([opcode, param1, param2Low param2, param2High param2] ++ data).length + 3 := by
    simp only [Config.overhead, List.length_append, List.length_cons, List.length_nil]
    omega
  rw [outFrameBytes, outBody, outCount, hcount]
  rfl

/-- R149: what ENCODE leaves behind the first byte. -/
theorem runEncode_txSlice_inFrame {s : State} {data : List Byte} (opcode param1 : Byte) (param2 : Half)
    (hfits : Config.overhead + data.length ≤ s.cfg.maxTransfer.toNat) :
    (runEncode opcode param1 param2 data s).txSlice 1 (7 + data.length) =
      inFrameBytes ([opcode, param1, param2Low param2, param2High param2] ++ data) := by
  rw [runEncode_fits opcode param1 param2 hfits, State.complete_eq, State.finish_txSlice, State.setCodecCrc_txSlice,
    State.putFrame_txSlice _ _ _ _ (by rw [outFrameBytes_length]; omega), outFrameBytes_eq_cons_inFrameBytes,
    List.drop_succ_cons, List.drop_zero, List.take_of_length_le]
  simp only [inFrameBytes_length, List.length_append, List.length_cons, List.length_nil]
  omega

/-- R144 to R147: DECODE accepts the bytes received, with a payload, exactly if they are that payload's frame of R72. -/
theorem rxSlice_eq_inFrameBytes_iff {s : State} {payload : List Byte} (hmax : s.rxTotal.toNat ≤ 128) :
    s.rxSlice 0 s.rxTotal.toNat = inFrameBytes payload ↔
      s.countFails = false ∧ s.crcFails = false ∧ s.rxPayload = payload := by
  rw [eq_inFrameBytes_iff, State.rxSlice_length, countFails_eq_false_iff]
  by_cases hmin : 3 ≤ s.rxTotal.toNat
  · have hsub (i n : Nat) (hin : i + n ≤ s.rxTotal.toNat) :
        s.rxSlice i n = ((s.rxSlice 0 s.rxTotal.toNat).drop i).take n := s.rxSlice_sub i n hin
    have hfirst : (s.rxSlice 0 s.rxTotal.toNat).head? = some (BitVec.ofNat 8 s.rxTotal.toNat) ↔
        (s.readRx 0).toNat = s.rxTotal.toNat := by
      rw [List.head?_eq_getElem?, State.rxSlice_getElem? s _ _ _ (by omega), Option.some_inj, BitVec.ofNat_toNat,
        BitVec.setWidth_eq, BitVec.toNat_inj]
    have hlast : (s.rxSlice 0 s.rxTotal.toNat).drop (s.rxTotal.toNat - 2) = s.rxSlice (s.rxTotal.toNat - 2) 2 := by
      rw [hsub (s.rxTotal.toNat - 2) 2 (by omega), List.take_of_length_le]
      simp only [List.length_drop, State.rxSlice_length]
      omega
    have hcovered : (s.rxSlice 0 s.rxTotal.toNat).take (s.rxTotal.toNat - 2) = s.rxSlice 0 (s.rxTotal.toNat - 2) := by
      rw [hsub 0 (s.rxTotal.toNat - 2) (by omega), List.drop_zero]
    have hcrc : s.crcFails = false ↔
        s.rxSlice (s.rxTotal.toNat - 2) 2 = (crc16Of (s.rxSlice 0 (s.rxTotal.toNat - 2))).bytes := by
      rw [State.crcFails, crcPair_rxCrc, decide_eq_false_iff_not, not_not]
    rw [hfirst, hlast, hcovered, hcrc, ← hsub 1 (s.rxTotal.toNat - 3) (by omega), State.rxPayload]
    simp only [hmin, hmax, true_and]
  · exact iff_of_false (fun h => hmin h.1) (fun h => hmin h.1.1)

/-- R144: DECODE of an inbound frame. -/
theorem runDecode_inFrame {s : State} {payload : List Byte} (hmax : s.rxTotal.toNat ≤ 128)
    (hframe : s.rxSlice 0 s.rxTotal.toNat = inFrameBytes payload) :
    runDecode s = (s.setCodecCrc s.rxCrc).complete (.payload payload) := by
  obtain ⟨hcount, hcrc, hpayload⟩ := (rxSlice_eq_inFrameBytes_iff hmax).1 hframe
  rw [runDecode_ok hcount hcrc, hpayload]

/-- Settles O21: without its first byte the encoded frame is an inbound frame. -/
theorem codecRoundTrip : Obligations.CodecRoundTrip := by
  intro s e r opcode param1 param2 data hlen hfits hencode htotal hslice
  obtain rfl := Host.Outcome.next.inj hencode
  rw [runEncode_txSlice_inFrame opcode param1 param2 hfits, ← htotal] at hslice
  refine ⟨_, exec_decode r, ?_⟩
  rw [runDecode_inFrame (by omega) hslice]
  exact ⟨rfl, rfl⟩

/-! ### The count byte -/

/-- R32, R140: the frame length that ENCODE notes. -/
theorem runEncode_txLen_toNat {s : State} {data : List Byte} (opcode param1 : Byte) (param2 : Half)
    (hfits : Config.overhead + data.length ≤ s.cfg.maxTransfer.toNat) :
    (runEncode opcode param1 param2 data s).txLen.toNat = 8 + data.length := by
  rw [runEncode_fits opcode param1 param2 hfits, ← outFrameBytes_length s.cfg.pfxCommand opcode param1 param2]
  exact putFrame_txLen_toNat s (p := s.cfg) ⟨opcode, param1, param2, data, hfits, rfl⟩

/-- R71: the count byte that ENCODE writes does not wrap, since MAX_TRANSFER is a byte. -/
theorem runEncode_count_toNat {s : State} {data : List Byte} (opcode param1 : Byte) (param2 : Half)
    (hfits : Config.overhead + data.length ≤ s.cfg.maxTransfer.toNat) :
    ((runEncode opcode param1 param2 data s).readTx 1).toNat = 7 + data.length := by
  rw [runEncode_readTx opcode param1 param2 hfits]
  exact Nat.mod_eq_of_lt (hfits.trans_lt s.cfg.maxTransfer.isLt)

/-- Settles O22: the frame that ENCODE puts in `txbuf`, and the count test that an accepted frame passed. -/
theorem countIsFrameLength : Obligations.CountIsFrameLength := by
  refine ⟨fun s t opcode param1 param2 data h hok => ?_, fun s t h hok => ?_⟩
  · obtain rfl := Host.Outcome.next.inj h
    obtain ⟨-, e⟩ | ⟨hfits, -⟩ := runEncode_cases opcode param1 param2 data s
    · rw [e] at hok
      exact nomatch hok
    · rw [runEncode_count_toNat opcode param1 param2 hfits, runEncode_txLen_toNat opcode param1 param2 hfits]
      omega
  · obtain rfl := Host.Outcome.next.inj h
    obtain ⟨-, e⟩ | ⟨-, -, e⟩ | ⟨hcount, -, -⟩ := runDecode_cases s
    · rw [e] at hok
      exact nomatch hok
    · rw [e] at hok
      exact nomatch hok
    · obtain ⟨-, -, hfirst⟩ := (countFails_eq_false_iff s).1 hcount
      exact hfirst

/-! ### Too much data -/

/-- R180 line 1: a transaction ends with the error of its ENCODE. -/
theorem xact_of_encode_error {c : Command} {s : State} (tExec : Nat) (len : Byte) (ip : Interp)
    (herr : (runEncode c.opcode c.param1 c.param2 c.data s).err ≠ .ok) :
    xact c tExec len ip s = ⟨.error (runEncode c.opcode c.param1 c.param2 c.data s).err, false,
      runEncode c.opcode c.param1 c.param2 c.data s⟩ := if_pos herr

/-- Settles O49: ENCODE refuses the data, and its own ending is the transaction's. -/
theorem xactTooLargeTouchesNoBus : Obligations.XactTooLargeTouchesNoBus := by
  intro c tExec len ip s hlarge
  have e := runEncode_large c.opcode c.param1 c.param2 hlarge
  rw [xact_of_encode_error tExec len ip (by rw [e]; exact nofun), e]
  exact ⟨rfl, rfl, rfl, rfl⟩

end Sys2Proof.Proofs

/-! The transfer engine (R160 to R171): TRANSMIT by its answer, RECEIVE by what its reads delivered, and the one
instruction that can stop. -/

namespace Sys2Proof.Proofs
open Sys2Proof.Machine

/-! ### RECEIVE for every environment -/

theorem exec_receive (n : Byte) (s : State) : exec (.receive n) s = .next (runReceive n s) := rfl

/-- An index outside the buffer is never listed in a canonical buffer. -/
theorem find_eq_none_of_wf {cap k : Nat} {m : Memory} (h : Memory.wf cap m) (hk : cap ≤ k) : m.find k = none := by
  obtain ⟨-, hlt⟩ := h
  induction m with
  | nil => rfl
  | cons c m ih =>
    have hc : c.1 ≠ k := (lt_of_lt_of_le (hlt c List.mem_cons_self) hk).ne
    rw [Memory.find, if_neg hc, ih fun d hd => hlt d (List.mem_cons_of_mem c hd)]

/-- R162: RECEIVE's outputs by how it ends. -/
theorem runReceive_output (n : Byte) (s : State) :
    ((runReceive n s).err = .ok → (runReceive n s).output = (runReceive n s).receivedOutput) ∧
      ((runReceive n s).err = .busError → (runReceive n s).output = .none) := by
  obtain ⟨es, r, t, -, -, ⟨-, -, e⟩ | ⟨-, -, e⟩ | ⟨-, e⟩⟩ := runReceive_cases n s <;> rw [e]
  · exact ⟨fun _ => rfl, nofun⟩
  · exact ⟨fun _ => rfl, nofun⟩
  · exact ⟨nofun, fun _ => rfl⟩

/-- R168: `exhausted` says that the steps ended without a failed read and short of the total. -/
theorem stepsSpec_exhausted_iff {s t : State} {n : Byte} {r : ResultCode} {es : List Event} (g : s.StepsSpec n r t es) :
    t.exhausted = true ↔ r = .ok ∧ t.rxTotal.toNat < t.rxExpected.toNat := by
  rw [g.exhausted, Bool.and_eq_true, decide_eq_true_iff, State.incomplete, decide_eq_true_iff]

/-- Settles O25: `State.StepsSpec` of the receive steps, and the ending's `ps` and output. -/
theorem receiveCollectsDelivered : Obligations.ReceiveCollectsDelivered := by
  refine ⟨fun _ _ _ => rfl, fun s n => ?_⟩
  have hps := runReceive_ps n s
  obtain ⟨houtput, hnoOutput⟩ := runReceive_output n s
  obtain ⟨es, r, t, p, o, g, e⟩ := runReceive_eq_steps_then_end n s
  rw [e] at hps houtput hnoOutput
  have hreadRx (k : Nat) (hk : k < 128) : t.readRx k = ((delivered es)[k]?).getD 0xFF#8 := by
    rw [State.readRx, g.collected.bytes k hk, Option.getD_some]
  have hoverflow : t.overflow = true ↔ 128 < (delivered es).length := by
    rw [g.collected.flag, decide_eq_true_iff]
  have hexhausted : t.exhausted = true ↔ r = .ok ∧ t.rxTotal.toNat < t.rxExpected.toNat := stepsSpec_exhausted_iff g
  have hspent (hex : t.exhausted = true) : t.attempts.toNat = 20 :=
    ((stepsSpec_receiveInv g).exhaustedMeans hex).1
  have hreadTx (k : Nat) : t.readTx k = s.readTx k := by rw [State.readTx, g.frame.txbuf, State.readTx]
  exact ⟨_, es, (exec_receive n s).trans (congrArg _ e), g.trace, g.atMost, g.attempts,
    fun pre post ev => g.reads pre ev post, g.expected, g.collected.total, hreadRx, hoverflow, g.result, g.failed,
    hexhausted, hspent, hps, houtput, hnoOutput, g.frame.crcReg, g.frame.lastCrc, g.frame.devAddr, g.frame.txLen,
    g.frame.cfg, hreadTx, fun _ => find_eq_none_of_wf g.collected.wf, g.frame.inputs, g.frame.writeAnswers⟩

/-! ### RECEIVE of a frame on the bus -/

theorem readSchedule_length (dev : BusAddr) (c : List Byte) : (readSchedule dev c).length = (c.length + 31) / 32 := by
  rw [readSchedule, List.length_map, List.length_range]

/-- Settles O27: the receive steps bring the frame whole, within capacity. -/
theorem receiveWholeFrame : Obligations.ReceiveWholeFrame := by
  intro s n c rest hbus hlen hne
  obtain ⟨t, hsteps, g, hrest, -, hdone⟩ := s.receiveSteps_frame n c rest hbus hlen hne
  have hcollected : t.Collected c := delivered_readSchedule s.devAddr c ▸ g.collected
  have hfits : c.length ≤ Config.rxbufCap := hlen ▸ Nat.min_le_right _ _
  have htotal : t.rxTotal.toNat = c.length := hcollected.total.trans (Nat.min_eq_left (hfits.trans (by decide)))
  have hoverflow : t.overflow = false := hcollected.flag.trans (decide_eq_false (Nat.not_lt.2 hfits))
  exact ⟨_, (exec_receive n s).trans (congrArg _ (runReceive_of_steps_ok hsteps hdone)), g.trace,
    g.attempts.trans (readSchedule_length _ c), htotal, hcollected.rxSlice hfits, hdone, hoverflow, rfl, rfl, hrest⟩

/-! ### RECEIVE of nothing -/

/-- R163: with nothing outstanding the loop makes no read. -/
theorem receiveSteps_zero (s : State) : s.receiveSteps 0#8 = (.ok, s.startReceive 0#8) := by
  rw [State.receiveSteps, State.receiveLoop_stop _ _ (.inl rfl)]
  rfl

/-- Settles O28: the state the engine starts in is the one it ends in. -/
theorem receiveNothing : Obligations.ReceiveNothing := by
  intro s
  rw [exec_receive, runReceive_of_steps_ok (receiveSteps_zero s) rfl]
  rfl

/-! ### RECEIVE of empty answers -/

/-- R167, R168: as many empty answers as turns are left: each turn makes the same read, and the total stays short. -/
theorem receiveLoop_of_empty_answers (fuel : Nat) {s : State} {rest : List Pending} (hshort : s.incomplete = true)
    (hbus : s.readAnswers = List.replicate fuel (.answer (.bytes [])) ++ rest)
    (hturns : s.attempts.toNat + fuel ≤ Config.attemptMax) :
    ∃ t, s.receiveLoop fuel = (.ok, t) ∧
      t.trace = s.trace ++ List.replicate fuel (.rd s.devAddr s.chunk (.bytes [])) := by
  induction fuel generalizing s with
  | zero => exact ⟨s, rfl, (List.append_nil _).symm⟩
  | succ fuel ih =>
    rw [List.replicate_succ, List.cons_append] at hbus
    have hread : s.nextRead s.chunk = .bytes [] := by rw [State.nextRead, hbus]
    have hattempts : (s.attempts + 1#5).toNat ≤ s.attempts.toNat + 1 := by
      rw [BitVec.toNat_add]
      exact Nat.mod_le _ _
    have hchunk : (s.trRead s.devAddr s.chunk).2.countAttempt.chunk = s.chunk := by simp [State.chunk]
    obtain ⟨t, hloop, htrace⟩ := ih (s := (s.trRead s.devAddr s.chunk).2.countAttempt)
      (by simpa [State.incomplete] using hshort) (by simp [State.dropRead, hbus])
      (by rw [State.countAttempt_attempts, State.trRead_snd, State.logEvent_attempts, State.dropRead_attempts]; omega)
    refine ⟨t, ?_, ?_⟩
    · rw [State.receiveLoop_succ _ _ hshort (by omega), hread]
      exact hloop
    · rw [htrace, hchunk, List.replicate_succ]
      simp [hread]

/-- R163: the clamped request. -/
theorem startReceive_rxExpected_toNat (s : State) (n : Byte) :
    (s.startReceive n).rxExpected.toNat = min n.toNat Config.rxbufCap := by
  rw [State.startReceive_rxExpected]
  split
  next h => rw [Nat.min_eq_left h]
  next h => rw [Nat.min_eq_right (Nat.le_of_not_le h)]; rfl

theorem startReceive_incomplete (s : State) {n : Byte} (hn : n ≠ 0#8) : (s.startReceive n).incomplete = true := by
  have hpos : 0 < n.toNat := Nat.pos_of_ne_zero fun h0 => hn (BitVec.eq_of_toNat_eq h0)
  rw [State.incomplete, decide_eq_true_iff, startReceive_rxExpected_toNat, State.startReceive_rxTotal]
  exact Nat.lt_min.2 ⟨hpos, by decide⟩

/-- R165: the first read asks for as much of the clamped request as one read can bring. -/
theorem startReceive_chunk (s : State) (n : Byte) :
    (s.startReceive n).chunk = min Config.chunkMax (min n.toNat Config.rxbufCap) := by
  rw [State.chunk, startReceive_rxExpected_toNat]
  rfl

/-- R167: the receive steps over twenty empty answers make twenty reads of one size. -/
theorem receiveSteps_of_empty_answers {s : State} {n : Byte} {rest : List Pending} (hn : n ≠ 0#8)
    (hbus : s.readAnswers = List.replicate Config.attemptMax (.answer (.bytes [])) ++ rest) :
    ∃ t, s.receiveSteps n = (.ok, t) ∧ s.StepsSpec n .ok t (List.replicate Config.attemptMax
      (.rd s.devAddr (min Config.chunkMax (min n.toNat Config.rxbufCap)) (.bytes []))) := by
  obtain ⟨t, hloop, htrace⟩ := receiveLoop_of_empty_answers Config.attemptMax (startReceive_incomplete s hn) hbus
    (Nat.le_of_eq (Nat.zero_add _))
  rw [startReceive_chunk] at htrace
  have hsteps : s.receiveSteps n = (.ok, t.noteExhausted) := by rw [State.receiveSteps, hloop]
  obtain ⟨es, g⟩ := s.receiveSteps_spec n
  rw [hsteps] at g
  obtain rfl := List.append_cancel_left (g.trace.symm.trans htrace)
  exact ⟨_, hsteps, g⟩

theorem delivered_replicate_empty (k : Nat) (a : BusAddr) (m : Nat) :
    delivered (List.replicate k (.rd a m (.bytes []))) = [] := by
  simp [delivered, Event.readBytes]

/-- Settles O29: twenty reads that delivered nothing, so the total is 0, short of what is expected. -/
theorem receiveExhausts : Obligations.ReceiveExhausts := by
  intro s n rest hn hbus
  obtain ⟨t, hsteps, g⟩ := receiveSteps_of_empty_answers hn hbus
  have hcollected := g.collected
  rw [delivered_replicate_empty] at hcollected
  have htotal : t.rxTotal = 0#8 := BitVec.eq_of_toNat_eq hcollected.total
  have hshort : t.rxTotal.toNat < t.rxExpected.toNat := by
    have hstart := startReceive_incomplete s hn
    rw [State.incomplete, decide_eq_true_iff, startReceive_rxExpected_toNat, ← g.expected] at hstart
    rwa [htotal]
  have hexhausted := (stepsSpec_exhausted_iff g).2 ⟨rfl, hshort⟩
  exact ⟨_, (exec_receive n s).trans (congrArg _ (runReceive_of_steps_exhausted hsteps hexhausted)), g.attempts, htotal,
    hexhausted, rfl, g.frame.ps, g.trace⟩

/-! ### TRANSMIT -/

theorem exec_transmit_of_no_frame {s : State} (h : s.txLen = 0#9) : exec .transmit s = .refused .noValidFrame := if_pos h

/-- Settles O23: the refusal, and the two endings of `runTransmit` by the answer. -/
theorem transmitSendsFrame : Obligations.TransmitSendsFrame := by
  refine ⟨fun _ _ => rfl, fun s => exec_transmit_of_no_frame, fun s hframe hack => ?_, fun s hframe hack => ?_⟩
  · rw [exec_transmit_of_frame hframe, runTransmit_ok hack, State.complete, State.finish, State.setPs, State.logEvent,
      State.dropAck_trace]
  · rw [exec_transmit_of_frame hframe, runTransmit_err hack, State.raiseError, State.finish, State.logEvent,
      State.dropAck_trace]

/-! ### The instruction that can stop -/

/-- Settles O37: TRANSMIT by whether there is a frame; every other arm of `exec` answers `.next`. -/
theorem onlyTransmitWithoutFrameStops : Obligations.OnlyTransmitWithoutFrameStops := by
  intro i s
  cases i with
  | transmit =>
    by_cases h : s.txLen = 0#9
    · exact .inl ⟨rfl, h, exec_transmit_of_no_frame h⟩
    · exact .inr ⟨fun _ => h, _, exec_transmit_of_frame h⟩
  | _ => exact .inr ⟨nofun, _, rfl⟩

end Sys2Proof.Proofs

/-! The command sequencer (R180 to R184, R196, R199): a transaction as the states after its lines and the line at which
it ends, then the obligations about it. -/

namespace Sys2Proof.Proofs
open Sys2Proof.Machine Sys2Proof.Sequencer

/-! ### The lines of a transaction -/

section Lines
variable (c : Command) (tExec : Nat) (len : Byte) (ip : Interp) (s : State)

/-- The block after line 1 of R180. -/
def afterEncode : State := runEncode c.opcode c.param1 c.param2 c.data s

/-- The block after line 2 of R180. -/
def afterWake : State := runWake (afterEncode c s)

/-- The block after line 5 of R180. -/
def afterTransmit : State := runTransmit (afterWake c s)

/-- The block after lines 6 and 7 of R180. -/
def afterReceive : State := runReceive len ((afterTransmit c s).trDelay tExec)

/-- The block after line 8 of R180. -/
def afterIdle : State := runIdle (afterReceive c tExec len s)

/-- The block after line 10 of R180. -/
def afterDecode : State := runDecode (afterIdle c tExec len s)

/-- The operations of lines 1 to 8 each ended with `Ok`. -/
structure OkUntilIdle : Prop where
  encode : (afterEncode c s).err = .ok
  wake : (afterWake c s).err = .ok
  transmit : (afterTransmit c s).err = .ok
  receive : (afterReceive c tExec len s).err = .ok
  idle : (afterIdle c tExec len s).err = .ok

/-- The line of R180 at which a transaction ends, with what it returns there. -/
inductive XactEnds : Done → Prop
  | encodeFailed (hencode : (afterEncode c s).err ≠ .ok) :
      XactEnds ⟨.error (afterEncode c s).err, false, afterEncode c s⟩
  | wakeBusError (hencode : (afterEncode c s).err = .ok) (hwake : (afterWake c s).err = .busError) :
      XactEnds ⟨.error .busError, false, afterWake c s⟩
  | wakeFailed (hencode : (afterEncode c s).err = .ok) (hwake : (afterWake c s).err ≠ .ok)
      (hbus : (afterWake c s).err ≠ .busError) :
      XactEnds ⟨.error (afterWake c s).err, false, runIdle (afterWake c s)⟩
  | transmitFailed (hencode : (afterEncode c s).err = .ok) (hwake : (afterWake c s).err = .ok)
      (htransmit : (afterTransmit c s).err ≠ .ok) :
      XactEnds ⟨.error (afterTransmit c s).err, false, afterTransmit c s⟩
  | receiveFailed (hencode : (afterEncode c s).err = .ok) (hwake : (afterWake c s).err = .ok)
      (htransmit : (afterTransmit c s).err = .ok) (hreceive : (afterReceive c tExec len s).err ≠ .ok) :
      XactEnds ⟨.error (afterReceive c tExec len s).err, true, afterReceive c tExec len s⟩
  | idleFailed (hencode : (afterEncode c s).err = .ok) (hwake : (afterWake c s).err = .ok)
      (htransmit : (afterTransmit c s).err = .ok) (hreceive : (afterReceive c tExec len s).err = .ok)
      (hidle : (afterIdle c tExec len s).err ≠ .ok) :
      XactEnds ⟨.error (afterIdle c tExec len s).err, true, afterIdle c tExec len s⟩
  | noResponse (hok : OkUntilIdle c tExec len s) (hshort : (afterIdle c tExec len s).exhausted = true) :
      XactEnds ⟨.error .noResponse, true, afterIdle c tExec len s⟩
  | decodeFailed (hok : OkUntilIdle c tExec len s) (hwhole : (afterIdle c tExec len s).exhausted = false)
      (hdecode : (afterDecode c tExec len s).err ≠ .ok) :
      XactEnds ⟨.error (afterDecode c tExec len s).err, true, afterDecode c tExec len s⟩
  | interpreted (hok : OkUntilIdle c tExec len s) (hwhole : (afterIdle c tExec len s).exhausted = false)
      (hdecode : (afterDecode c tExec len s).err = .ok) :
      XactEnds ⟨interpret ip (payloadOf (afterDecode c tExec len s)), true, afterDecode c tExec len s⟩

/-- R180: what can happen in a transaction. -/
theorem xact_ends : XactEnds c tExec len ip s (xact c tExec len ip s) := by
  simp only [xact, wakeThenTransmit, transmitThenCollect, collect, idleThenValidate, validate]
  split_ifs with hencode hbus hwake htransmit hreceive hidle hshort hdecode
  · exact .encodeFailed hencode
  · exact .wakeBusError (not_not.1 hencode) hbus
  · exact .wakeFailed (not_not.1 hencode) hwake hbus
  · exact .transmitFailed (not_not.1 hencode) (not_not.1 hwake) htransmit
  · exact .receiveFailed (not_not.1 hencode) (not_not.1 hwake) (not_not.1 htransmit) hreceive
  · exact .idleFailed (not_not.1 hencode) (not_not.1 hwake) (not_not.1 htransmit) (not_not.1 hreceive) hidle
  all_goals
    have hok : OkUntilIdle c tExec len s := ⟨not_not.1 hencode, not_not.1 hwake, not_not.1 htransmit,
      not_not.1 hreceive, not_not.1 hidle⟩
  · exact .noResponse hok hshort
  · exact .decodeFailed hok (Bool.eq_false_of_not_eq_true hshort) hdecode
  · exact .interpreted hok (Bool.eq_false_of_not_eq_true hshort) (not_not.1 hdecode)

/-- R31, R12: no line of a transaction writes the device's address or the parameters. -/
theorem afterWake_keeps : (afterWake c s).devAddr = s.devAddr ∧ (afterWake c s).cfg = s.cfg := by
  have hencode := runEncode_keepsUnwritten c.opcode c.param1 c.param2 c.data s
  have hwake := runWake_keepsUnwritten (afterEncode c s)
  exact ⟨hwake.devAddr.trans hencode.devAddr, hwake.cfg.trans hencode.cfg⟩

theorem afterReceive_keeps : (afterReceive c tExec len s).devAddr = s.devAddr ∧
    (afterReceive c tExec len s).cfg = s.cfg := by
  have htransmit := runTransmit_keepsUnwritten (afterWake c s)
  have hreceive := runReceive_keepsUnwritten len ((afterTransmit c s).trDelay tExec)
  obtain ⟨hdev, hcfg⟩ := afterWake_keeps c s
  exact ⟨(hreceive.devAddr.trans htransmit.devAddr).trans hdev, (hreceive.cfg.trans htransmit.cfg).trans hcfg⟩

end Lines

/-! ### How the operations of a transaction fail -/

/-- R220: an ENCODE that fails says that there is too much data. -/
theorem runEncode_err_of_ne_ok {opcode param1 : Byte} {param2 : Half} {data : List Byte} {s : State}
    (h : (runEncode opcode param1 param2 data s).err ≠ .ok) :
    (runEncode opcode param1 param2 data s).err = .payloadTooLarge :=
  (of_decide_eq_true (runEncode_mayEndWith opcode param1 param2 data s)).resolve_left h

theorem runTransmit_err_of_ne_ok {s : State} (h : (runTransmit s).err ≠ .ok) : (runTransmit s).err = .busError :=
  (of_decide_eq_true (runTransmit_mayEndWith s)).resolve_left h

theorem runReceive_err_of_ne_ok {n : Byte} {s : State} (h : (runReceive n s).err ≠ .ok) :
    (runReceive n s).err = .busError := (of_decide_eq_true (runReceive_mayEndWith n s)).resolve_left h

theorem runIdle_err_of_ne_ok {s : State} (h : (runIdle s).err ≠ .ok) : (runIdle s).err = .busError :=
  (of_decide_eq_true (runIdle_mayEndWith s)).resolve_left h

/-- R220: DECODE makes no transport call that could fail. -/
theorem runDecode_err_ne_busError (s : State) : (runDecode s).err ≠ .busError := by
  intro h
  have hmay := runDecode_mayEndWith s
  rw [h] at hmay
  exact nomatch hmay

/-- R181: the only error of an interpretation is the device's refusal. -/
theorem interpret_error {ip : Interp} {payload : List Byte} {e : ResultCode} (h : interpret ip payload = .error e) :
    e = .deviceRejected := by
  cases ip with
  | status | data | info =>
    simp only [interpret] at h
    split at h
    · exact nomatch h
    · exact (Reply.error.inj h).symm

/-! ### Every operation one after another -/

/-- R160: an ENCODE that ended with `Ok` has left a frame. -/
theorem afterEncode_txLen {c : Command} {s : State} (hok : (afterEncode c s).err = .ok) :
    (afterEncode c s).txLen ≠ 0#9 := by
  obtain ⟨-, e⟩ | ⟨hfits, -⟩ := runEncode_cases c.opcode c.param1 c.param2 c.data s
  · rw [afterEncode, e] at hok
    exact nomatch hok
  · exact (runEncode_frame c.opcode c.param1 c.param2 hfits).1

/-- R147: a DECODE that ended with `Ok` has put a payload out. -/
theorem runDecode_output {s : State} (hok : (runDecode s).err = .ok) :
    (runDecode s).output = .payload (payloadOf (runDecode s)) := by
  obtain ⟨-, e⟩ | ⟨-, -, e⟩ | ⟨-, -, e⟩ := runDecode_cases s <;> rw [e] at hok ⊢
  · exact nomatch hok
  · exact nomatch hok
  · rfl

/-- Settles O47: a value is returned at the last line alone, and TRANSMIT finds the frame that ENCODE left and WAKE did
not touch. -/
theorem xactRunsOperations : Obligations.XactRunsOperations := by
  intro c tExec len ip s v hvalue
  have ends := xact_ends c tExec len ip s
  generalize xact c tExec len ip s = x at ends hvalue
  cases ends with
  | interpreted hok hwhole hdecode =>
    have hframe : (afterWake c s).txLen ≠ 0#9 := by
      rw [afterWake, (runWake_keepsUnwritten _).txLen rfl]
      exact afterEncode_txLen hok.encode
    exact ⟨afterEncode c s, afterWake c s, afterTransmit c s, afterReceive c tExec len s, afterIdle c tExec len s,
      afterDecode c tExec len s, rfl, hok.encode, rfl, hok.wake, exec_transmit_of_frame hframe, hok.transmit, rfl,
      hok.receive, rfl, hok.idle, hwhole, rfl, hdecode, rfl, _, runDecode_output hdecode, hvalue⟩
  | _ => exact nomatch hvalue

/-! ### Everything succeeds -/

/-- The operation that ended in `t` ended with `Ok`, with the trace `es`, and the answers `ws` and `rs` are left for the
coming writes and reads. -/
structure OkWith (t : State) (es : List Event) (ws : List Ack) (rs : List Pending) : Prop where
  err : t.err = .ok
  trace : t.trace = es
  writeAnswers : t.writeAnswers = ws
  readAnswers : t.readAnswers = rs

theorem runEncode_okWith {s : State} {data : List Byte} (opcode param1 : Byte) (param2 : Half)
    (hfits : Config.overhead + data.length ≤ s.cfg.maxTransfer.toNat) :
    OkWith (runEncode opcode param1 param2 data s) s.trace s.writeAnswers s.readAnswers := by
  rw [runEncode_fits opcode param1 param2 hfits]
  exact ⟨rfl, rfl, rfl, rfl⟩

theorem judgeWake_keeps_answers (t : State) :
    t.judgeWake.writeAnswers = t.writeAnswers ∧ t.judgeWake.readAnswers = t.readAnswers := by
  obtain ⟨-, e⟩ | ⟨-, -, e⟩ | ⟨-, -, -, e⟩ | ⟨-, -, -, -, e⟩ | ⟨-, -, -, -, e⟩ := t.judgeWake_cases <;> rw [e] <;>
    exact ⟨rfl, rfl⟩

/-- R75, R122: WAKE with the wake response on the bus, whatever the pulse is answered (R121). -/
theorem runWake_okWith {s : State} {a : Ack} {ws : List Ack} {rs : List Pending} (hwrites : s.writeAnswers = a :: ws)
    (hbus : s.readAnswers = .frame wakeResponseBytes :: rs) :
    OkWith (runWake s) (s.trace ++ [.wr s.cfg.wakeAddr [] a, .dly 1500, .rd s.devAddr 4 (.bytes wakeResponseBytes)]) ws
      rs := by
  obtain ⟨_, hwake, herr, -, -, -, -, -, -, htrace⟩ := wakeOutcomeByBytes s 0x04#8 0x11#8 0x33#8 0x43#8 rs hbus
  obtain rfl := Host.Outcome.next.inj hwake
  obtain ⟨t, hsteps, g, hrest, -, -⟩ := s.wakePulseAndWait.receiveSteps_frame 4#8 wakeResponseBytes rs
    (by simpa using hbus) rfl (List.cons_ne_nil _ _)
  obtain ⟨hkeepWrites, hkeepReads⟩ := judgeWake_keeps_answers t
  rw [State.nextAck_cons hwrites] at htrace
  refine ⟨herr, htrace, ?_, ?_⟩ <;> rw [runWake_of_steps_ok hsteps]
  · rw [hkeepWrites, g.frame.writeAnswers]
    simp [hwrites]
  · rw [hkeepReads, hrest]

theorem runTransmit_okWith {s : State} {ws : List Ack} (hwrites : s.writeAnswers = .ok :: ws) :
    OkWith (runTransmit s) (s.trace ++ [.wr s.devAddr (s.txSlice 0 s.txLen.toNat) .ok]) ws s.readAnswers := by
  rw [runTransmit_ok (State.nextAck_cons hwrites)]
  constructor <;> simp [hwrites]

theorem runIdle_okWith {s : State} {ws : List Ack} (hwrites : s.writeAnswers = .ok :: ws) :
    OkWith (runIdle s) (s.trace ++ [.wr s.devAddr [s.cfg.pfxIdle] .ok]) ws s.readAnswers := by
  rw [runIdle_ok (State.nextAck_cons hwrites)]
  constructor <;> simp [hwrites]

theorem runReceive_writeAnswers (n : Byte) (s : State) : (runReceive n s).writeAnswers = s.writeAnswers := by
  obtain ⟨es, r, t, p, o, g, e⟩ := runReceive_eq_steps_then_end n s
  exact e ▸ g.frame.writeAnswers

/-- R182: the length a response frame has is the one its RECEIVE asks for. -/
theorem inFrameBytes_length_eq_responseLen {payload : List Byte} (hfits : payload.length + 3 ≤ Config.rxbufCap) :
    (inFrameBytes payload).length = min (responseLen payload.length).toNat Config.rxbufCap := by
  rw [inFrameBytes_length, responseLen_toNat hfits, Nat.add_comm 3, Nat.min_eq_left hfits]

/-- R171: RECEIVE with a response frame of the expected length on the bus takes it whole. -/
theorem runReceive_okWith {s : State} {payload : List Byte} {rs : List Pending}
    (hfits : payload.length + 3 ≤ Config.rxbufCap) (hbus : s.readAnswers = .frame (inFrameBytes payload) :: rs) :
    OkWith (runReceive (responseLen payload.length) s) (s.trace ++ readSchedule s.devAddr (inFrameBytes payload))
        s.writeAnswers rs ∧
      (runReceive (responseLen payload.length) s).exhausted = false ∧
      (runReceive (responseLen payload.length) s).rxTotal.toNat = payload.length + 3 ∧
      (runReceive (responseLen payload.length) s).rxSlice 0 (payload.length + 3) = inFrameBytes payload := by
  obtain ⟨_, hreceive, htrace, -, htotal, hslice, hwhole, -, -, herr, hrest⟩ := receiveWholeFrame s
    (responseLen payload.length) (inFrameBytes payload) rs hbus (inFrameBytes_length_eq_responseLen hfits)
    (List.cons_ne_nil _ _)
  obtain rfl := Host.Outcome.next.inj hreceive
  rw [inFrameBytes_length] at htotal hslice
  exact ⟨⟨herr, htrace, runReceive_writeAnswers _ _, hrest⟩, hwhole, htotal, hslice⟩

/-- R180: the last line of a transaction in which everything succeeds. -/
theorem xact_of_ok {c : Command} {tExec : Nat} {len : Byte} {s : State} (ip : Interp)
    (hok : OkUntilIdle c tExec len s) (hwhole : (afterIdle c tExec len s).exhausted = false)
    (hdecode : (afterDecode c tExec len s).err = .ok) :
    xact c tExec len ip s =
      ⟨interpret ip (payloadOf (afterDecode c tExec len s)), true, afterDecode c tExec len s⟩ := by
  have ends := xact_ends c tExec len ip s
  generalize xact c tExec len ip s = x at ends
  cases ends with
  | interpreted => rfl
  | encodeFailed hencode => exact absurd hok.encode hencode
  | wakeBusError _ hwake => exact nomatch hok.wake.symm.trans hwake
  | wakeFailed _ hwake => exact absurd hok.wake hwake
  | transmitFailed _ _ htransmit => exact absurd hok.transmit htransmit
  | receiveFailed _ _ _ hreceive => exact absurd hok.receive hreceive
  | idleFailed _ _ _ _ hidle => exact absurd hok.idle hidle
  | noResponse _ hshort => exact nomatch hwhole.symm.trans hshort
  | decodeFailed _ _ hfailed => exact absurd hdecode hfailed

/-- R160: WAKE does not touch the frame that ENCODE left. -/
theorem afterWake_txSlice {c : Command} {s : State}
    (hlen : Config.overhead + c.data.length ≤ s.cfg.maxTransfer.toNat) :
    (afterWake c s).txSlice 0 (afterWake c s).txLen.toNat =
      outFrameBytes s.cfg.pfxCommand c.opcode c.param1 c.param2 c.data := by
  have hkeeps := runWake_keepsUnwritten (afterEncode c s)
  rw [afterWake, State.txSlice_congr (hkeeps.txbuf rfl), hkeeps.txLen rfl]
  exact (runEncode_frame c.opcode c.param1 c.param2 hlen).2

/-- R180 lines 1 and 2. -/
theorem afterWake_okWith {c : Command} {s : State} {a : Ack} {ws : List Ack} {rs : List Pending}
    (hlen : Config.overhead + c.data.length ≤ s.cfg.maxTransfer.toNat) (hwrites : s.writeAnswers = a :: ws)
    (hbus : s.readAnswers = .frame wakeResponseBytes :: rs) :
    (afterEncode c s).err = .ok ∧ OkWith (afterWake c s)
      (s.trace ++ [.wr s.cfg.wakeAddr [] a, .dly 1500, .rd s.devAddr 4 (.bytes wakeResponseBytes)]) ws rs := by
  have hencode : OkWith (afterEncode c s) _ _ _ := runEncode_okWith c.opcode c.param1 c.param2 hlen
  have hwake : OkWith (afterWake c s) _ _ _ :=
    runWake_okWith (hencode.writeAnswers.trans hwrites) (hencode.readAnswers.trans hbus)
  have hkeeps := runEncode_keepsUnwritten c.opcode c.param1 c.param2 c.data s
  rw [hencode.trace, afterEncode, hkeeps.cfg, hkeeps.devAddr] at hwake
  exact ⟨hencode.err, hwake⟩

/-- R180 line 5. -/
theorem afterTransmit_okWith {c : Command} {s : State} {es : List Event} {ws : List Ack} {rs : List Pending}
    (hlen : Config.overhead + c.data.length ≤ s.cfg.maxTransfer.toNat)
    (hwake : OkWith (afterWake c s) es (.ok :: ws) rs) :
    OkWith (afterTransmit c s)
      (es ++ [.wr s.devAddr (outFrameBytes s.cfg.pfxCommand c.opcode c.param1 c.param2 c.data) .ok]) ws rs := by
  have htransmit : OkWith (afterTransmit c s) _ _ _ := runTransmit_okWith hwake.writeAnswers
  rwa [hwake.trace, hwake.readAnswers, (afterWake_keeps c s).1, afterWake_txSlice hlen] at htransmit

/-- R180 lines 6 to 8: the response frame stands in `rxbuf` when the idle byte is sent. -/
theorem afterIdle_okWith {c : Command} {tExec : Nat} {s : State} {es : List Event} {ws : List Ack} {rs : List Pending}
    {payload : List Byte} (hfits : payload.length + 3 ≤ Config.rxbufCap)
    (htransmit : OkWith (afterTransmit c s) es (.ok :: ws) (.frame (inFrameBytes payload) :: rs)) :
    (afterReceive c tExec (responseLen payload.length) s).err = .ok ∧
      OkWith (afterIdle c tExec (responseLen payload.length) s)
        (es ++ [.dly tExec] ++ readSchedule s.devAddr (inFrameBytes payload) ++ [.wr s.devAddr [s.cfg.pfxIdle] .ok]) ws
        rs ∧
      (afterIdle c tExec (responseLen payload.length) s).exhausted = false ∧
      (afterIdle c tExec (responseLen payload.length) s).rxTotal.toNat = payload.length + 3 ∧
      (afterIdle c tExec (responseLen payload.length) s).rxSlice 0 (payload.length + 3) = inFrameBytes payload := by
  obtain ⟨hreceive, hwhole, htotal, hslice⟩ :=
    runReceive_okWith (s := (afterTransmit c s).trDelay tExec) hfits htransmit.readAnswers
  have hidle : OkWith (afterIdle c tExec (responseLen payload.length) s) _ _ _ :=
    runIdle_okWith (hreceive.writeAnswers.trans htransmit.writeAnswers)
  have hkeeps := runIdle_keepsUnwritten (afterReceive c tExec (responseLen payload.length) s)
  obtain ⟨hdev, hcfg⟩ := afterReceive_keeps c tExec (responseLen payload.length) s
  have hdevTransmit : (afterTransmit c s).devAddr = s.devAddr :=
    (runTransmit_keepsUnwritten _).devAddr.trans (afterWake_keeps c s).1
  rw [hdev, hcfg, show (afterReceive c tExec (responseLen payload.length) s).trace = _ from hreceive.trace,
    State.trDelay_trace, State.trDelay_devAddr, hdevTransmit, htransmit.trace] at hidle
  refine ⟨hreceive.err, ⟨hidle.err, hidle.trace, hidle.writeAnswers, hidle.readAnswers.trans hreceive.readAnswers⟩,
    (hkeeps.exhausted rfl).trans hwhole, (congrArg _ (hkeeps.rxTotal rfl)).trans htotal, ?_⟩
  exact (State.rxSlice_congr (hkeeps.rxbuf rfl) _ _).trans hslice

/-- Settles O48: each operation takes its answers and adds its events, and DECODE gives the payload of the frame
received. -/
theorem xactSuccessTrace : Obligations.XactSuccessTrace := by
  intro c tExec ip s a ws rs payload hlen hfits hwrites hbus
  obtain ⟨hencode, hwake⟩ := afterWake_okWith hlen hwrites hbus
  have htransmit := afterTransmit_okWith hlen hwake
  obtain ⟨hreceive, hidle, hwhole, htotal, hslice⟩ := afterIdle_okWith (tExec := tExec) hfits htransmit
  have hdecode := runDecode_inFrame (htotal.le.trans hfits) (htotal ▸ hslice)
  have hok : OkUntilIdle c tExec (responseLen payload.length) s :=
    ⟨hencode, hwake.err, htransmit.err, hreceive, hidle.err⟩
  refine ⟨_, rfl, ?_⟩
  rw [xact_of_ok ip hok hwhole (by rw [afterDecode, hdecode]; rfl), afterDecode, hdecode]
  refine ⟨rfl, rfl, ?_, rfl, ?_⟩
  · exact (runIdle_ps _).trans (if_pos hidle.err)
  · refine hidle.trace.trans ?_
    simp [wakeResponseBytes]

/-! ### The idle byte last -/

/-- The last event of the trace is the idle byte, written to `dev` under `p`, and if it was taken `ps` is Idle. -/
def IdledLast (p : Params) (dev : BusAddr) (t : State) : Prop :=
  ∃ r : Ack, t.trace.getLast? = some (.wr dev [p.pfxIdle] r) ∧ (r = .ok → t.ps = .idle)

theorem runIdle_idledLast (s : State) : IdledLast s.cfg s.devAddr (runIdle s) := by
  obtain ⟨-, e⟩ | ⟨-, e⟩ := runIdle_cases s <;> rw [e]
  · exact ⟨.ok, by simp, fun _ => rfl⟩
  · exact ⟨.err, by simp, nofun⟩

theorem runDecode_idledLast {p : Params} {dev : BusAddr} {t : State} (h : IdledLast p dev t) :
    IdledLast p dev (runDecode t) := by
  rwa [IdledLast, runDecode_trace, (runDecode_keepsUnwritten t).ps rfl]

theorem idle_afterWake_idledLast (c : Command) (s : State) : IdledLast s.cfg s.devAddr (runIdle (afterWake c s)) := by
  obtain ⟨hdev, hcfg⟩ := afterWake_keeps c s
  exact hdev ▸ hcfg ▸ runIdle_idledLast (afterWake c s)

theorem afterIdle_idledLast (c : Command) (tExec : Nat) (len : Byte) (s : State) :
    IdledLast s.cfg s.devAddr (afterIdle c tExec len s) := by
  obtain ⟨hdev, hcfg⟩ := afterReceive_keeps c tExec len s
  exact hdev ▸ hcfg ▸ runIdle_idledLast (afterReceive c tExec len s)

/-- Settles O50: the lines that return without the idle byte return `PayloadTooLarge` or `BusError`. -/
theorem xactEndsIdle : Obligations.XactEndsIdle := by
  intro c tExec len ip s hbus hlarge
  have ends := xact_ends c tExec len ip s
  generalize xact c tExec len ip s = x at ends hbus hlarge
  cases ends with
  | encodeFailed hencode => exact absurd (congrArg _ (runEncode_err_of_ne_ok hencode)) hlarge
  | wakeBusError => exact absurd rfl hbus
  | wakeFailed => exact idle_afterWake_idledLast c s
  | transmitFailed _ _ htransmit => exact absurd (congrArg _ (runTransmit_err_of_ne_ok htransmit)) hbus
  | receiveFailed _ _ _ hreceive => exact absurd (congrArg _ (runReceive_err_of_ne_ok hreceive)) hbus
  | idleFailed _ _ _ _ hidle => exact absurd (congrArg _ (runIdle_err_of_ne_ok hidle)) hbus
  | noResponse => exact afterIdle_idledLast c tExec len s
  | decodeFailed | interpreted => exact runDecode_idledLast (afterIdle_idledLast c tExec len s)

/-! ### The call that failed last -/

/-- The last event of the trace is a call that was answered `err`. -/
def StoppedAtFailedCall (t : State) : Prop :=
  ∃ e : Event, t.trace.getLast? = some e ∧ ((∃ a content, e = .wr a content .err) ∨ (∃ a m, e = .rd a m .err))

/-- R169: the receive steps stop at the read that failed. -/
theorem stepsSpec_stoppedAtFailedCall {s t : State} {n : Byte} {es : List Event} (g : s.StepsSpec n .busError t es) :
    StoppedAtFailedCall t := by
  obtain ⟨e, he, hfailed⟩ := g.failed.1 rfl
  obtain ⟨pre, post, rfl⟩ := List.append_of_mem he
  obtain ⟨ans, rfl, -, hlast⟩ := g.reads pre e post rfl
  cases ans with
  | bytes => exact nomatch hfailed
  | err => exact ⟨_, by rw [g.trace, hlast rfl, ← List.append_assoc, List.getLast?_concat], .inr ⟨_, _, rfl⟩⟩

theorem runReceive_stoppedAtFailedCall {n : Byte} {s : State} (h : (runReceive n s).err = .busError) :
    StoppedAtFailedCall (runReceive n s) := by
  obtain ⟨es, r, t, g, -, ⟨-, -, e⟩ | ⟨-, -, e⟩ | ⟨rfl, e⟩⟩ := runReceive_cases n s <;> rw [e] at h ⊢
  · exact nomatch h
  · exact nomatch h
  · exact (stepsSpec_stoppedAtFailedCall g :)

theorem judgeWake_err_ne_busError (t : State) : t.judgeWake.err ≠ .busError := by
  obtain ⟨-, e⟩ | ⟨-, -, e⟩ | ⟨-, -, -, e⟩ | ⟨-, -, -, -, e⟩ | ⟨-, -, -, -, e⟩ := t.judgeWake_cases <;> rw [e] <;>
    exact nofun

/-- R120, R169: of WAKE's steps only its read ends it with `BusError`. -/
theorem runWake_stoppedAtFailedCall {s : State} (h : (runWake s).err = .busError) :
    StoppedAtFailedCall (runWake s) := by
  obtain ⟨es, r, t, g, -, ⟨rfl, e⟩ | ⟨-, e⟩⟩ := runWake_cases s <;> rw [e] at h ⊢
  · exact (stepsSpec_stoppedAtFailedCall g :)
  · exact absurd h (judgeWake_err_ne_busError t)

theorem runTransmit_stoppedAtFailedCall {s : State} (h : (runTransmit s).err = .busError) :
    StoppedAtFailedCall (runTransmit s) := by
  obtain ⟨-, e⟩ | ⟨-, e⟩ := runTransmit_cases s <;> rw [e] at h ⊢
  · exact nomatch h
  · exact ⟨_, List.getLast?_concat, .inl ⟨_, _, rfl⟩⟩

theorem runIdle_stoppedAtFailedCall {s : State} (h : (runIdle s).err = .busError) :
    StoppedAtFailedCall (runIdle s) := by
  obtain ⟨-, e⟩ | ⟨-, e⟩ := runIdle_cases s <;> rw [e] at h ⊢
  · exact nomatch h
  · exact ⟨_, List.getLast?_concat, .inl ⟨_, _, rfl⟩⟩

/-- Settles O51: each line that returns `BusError` is the one whose call failed; the other errors are other codes. -/
theorem xactBusErrorSendsNoMore : Obligations.XactBusErrorSendsNoMore := by
  intro c tExec len ip s hbus
  have ends := xact_ends c tExec len ip s
  generalize xact c tExec len ip s = x at ends hbus
  cases ends with
  | encodeFailed hencode =>
    rw [afterEncode, runEncode_err_of_ne_ok hencode] at hbus
    exact nomatch hbus
  | wakeBusError _ hwake => exact runWake_stoppedAtFailedCall hwake
  | wakeFailed _ _ hother => exact absurd (Reply.error.inj hbus) hother
  | transmitFailed => exact runTransmit_stoppedAtFailedCall (Reply.error.inj hbus)
  | receiveFailed => exact runReceive_stoppedAtFailedCall (Reply.error.inj hbus)
  | idleFailed => exact runIdle_stoppedAtFailedCall (Reply.error.inj hbus)
  | noResponse => exact nomatch hbus
  | decodeFailed => exact absurd (Reply.error.inj hbus) (runDecode_err_ne_busError _)
  | interpreted => exact nomatch interpret_error hbus

/-! ### The hash input -/

/-- The first `n` cuts of 64 bytes are the first `64 * n` bytes. -/
theorem flatten_cuts (data : List Byte) (n : Nat) :
    ((List.range n).map fun j => (data.drop (64 * j)).take 64).flatten = data.take (64 * n) := by
  induction n with
  | zero => rfl
  | succ n ih =>
    rw [List.range_succ, List.map_append, List.flatten_append, ih, Nat.mul_succ, List.take_add]
    simp

/-- Settles O55: the blocks are the input's first `len` div 64 cuts, and the remainder is what stands behind them. -/
theorem shaSplitsInput : Obligations.ShaSplitsInput := by
  intro data
  refine ⟨?_, by rw [shaBlocks, List.length_map, List.length_range], fun b hb => ?_, ?_⟩
  · rw [shaBlocks, flatten_cuts, shaRemainder, List.take_append_drop]
  · obtain ⟨j, hj, rfl⟩ := List.mem_map.1 hb
    have hlt := List.mem_range.1 hj
    exact slice_length (by omega)
  · rw [shaRemainder, List.length_drop]
    omega

/-! ### The host's temp-key bit -/

theorem sign_unloaded {k : Catalogue} {slot : Slot} {h : HostState} (hbit : h.tempkeyLoaded = false) :
    sign k slot h = (.refused, h) := by
  rw [sign, hbit, if_neg Bool.false_ne_true]

theorem sign_loaded_tempkeyLoaded {k : Catalogue} {slot : Slot} {h : HostState} (hbit : h.tempkeyLoaded = true) :
    (sign k slot h).2.tempkeyLoaded =
      !(h.run k ⟨k.opSign, (k.signFields k.signMode slot).1, (k.signFields k.signMode slot).2, []⟩ (responseLen 64)
        (.data 64)).sent := by
  rw [sign, if_pos hbit]

theorem loadTempKey_tempkeyLoaded (k : Catalogue) (data : Vector Byte 32) (h : HostState) :
    (loadTempKey k data h).2.tempkeyLoaded =
      (h.tempkeyLoaded || decide ((loadTempKey k data h).1 = .ok [])) := rfl

theorem verifyWith_tempkeyLoaded (k : Catalogue) (f : Byte × Half) (data : List Byte) (h : HostState) :
    (verifyWith k f data h).2.tempkeyLoaded = (h.tempkeyLoaded &&
      !(h.run k ⟨k.opVerify, f.1, f.2, data⟩ (responseLen 1) .status).sent) := rfl

/-- Settles O54: what each call writes to the bit. -/
theorem tempKeyIsSingleUse : Obligations.TempKeyIsSingleUse := by
  intro k slot h
  refine ⟨fun data => ?_, sign_unloaded, fun hafter => ?_, fun f data hsent => ?_, rfl, rfl⟩
  · rw [loadTempKey_tempkeyLoaded, Bool.or_eq_true, decide_eq_true_iff]
  · cases hbit : h.tempkeyLoaded with
    | false =>
      rw [sign_unloaded hbit, hbit] at hafter
      exact nomatch hafter
    | true =>
      rw [sign_loaded_tempkeyLoaded hbit, Bool.not_eq_true'] at hafter
      exact ⟨rfl, hafter⟩
  · rw [verifyWith_tempkeyLoaded, hsent, Bool.not_true, Bool.and_false]

end Sys2Proof.Proofs

/-! What raises which result code (R220, R225): the operations of the block by the table's column, and the length test
that the host's two zone calls make before any operation. -/

namespace Sys2Proof.Proofs
open Sys2Proof.Machine Sys2Proof.Sequencer

/-! ### The codes of the operations -/

/-- Settles O42: operation by operation, the codes of its cases are those of its row in the table. -/
theorem resultCodesByOperation : Obligations.ResultCodesByOperation := fun _ _ _ => exec_mayEndWith

/-! ### The length of a zone transfer -/

theorem readZone_invalidLength {length : Nat} (h4 : length ≠ 4) (h32 : length ≠ 32) (k : Catalogue) (zone : Zone)
    (address : Nat) (h : HostState) : readZone k zone address length h = (.error .invalidLength, h) :=
  if_neg (not_or.2 ⟨h4, h32⟩)

theorem writeZone_invalidLength {bytes : List Byte} (h4 : bytes.length ≠ 4) (h32 : bytes.length ≠ 32) (k : Catalogue)
    (zone : Zone) (address : Nat) (h : HostState) : writeZone k zone address bytes h = (.error .invalidLength, h) :=
  if_neg (not_or.2 ⟨h4, h32⟩)

/-- Settles O52: both calls test the length before they form a command. -/
theorem zoneLengthCheckedFirst : Obligations.ZoneLengthCheckedFirst := fun k zone address _ _ h =>
  ⟨fun h4 h32 => readZone_invalidLength h4 h32 k zone address h,
    fun h4 h32 => writeZone_invalidLength h4 h32 k zone address h⟩

end Sys2Proof.Proofs

/-! The step with nothing at the block's interfaces (R251). -/

namespace Sys2Proof.Proofs
open Sys2Proof.Machine

/-- Settles O6: it is the branch of `step` that reads no input, so neither the decoder nor `exec` runs. -/
theorem stepWithoutInputDoesNothing : Obligations.StepWithoutInputDoesNothing := by
  intro s hinputs
  simp only [step, hinputs]

end Sys2Proof.Proofs
